-- ==== Sys2Proof/Word.lean ====
section
/-! DEFINITION. The widths of the engine's values (spec/00_scope.md R4).

A bit sequence `X` of length `n` (R5) and the bit vector of width `n` denote each other when position 0 is the most
significant bit (R6), so one type serves both: `X⟨i⟩` is `BitVec.getMsbD X i`, `X ‖ Y` is `X ++ Y`. -/

namespace Sys2Proof

/-- 8 bits (20_memory.md R26). -/
abbrev Byte := BitVec 8

/-- A block or a raw key: 64 bits, 8 bytes (R4, R9). -/
abbrev Block := BitVec 64

/-- One half of a block state: 32 bits (R4). -/
abbrev Half := BitVec 32

/-- One half of the rotating key state: 28 bits (R4). -/
abbrev KeyHalf := BitVec 28

/-- A round key: 48 bits (R4). -/
abbrev RoundKey := BitVec 48

/-- A command word `CW`: 70 bits (30_encoding.md R38). -/
abbrev CommandWord := BitVec 70

/-- A response word `RW`: 66 bits (30_encoding.md R42). -/
abbrev ResponseWord := BitVec 66

end Sys2Proof
end

