-- ==== Sys2Proof/Syntax.lean ====
section
/-! DEFINITION. The instructions: one constructor for each row of spec/opcode_table.json, and the lines of the assembler
syntax of spec/30_encoding.md R48. -/

namespace Sys2Proof

/-- The direction of a block command, held in `DIR` (10_state.md R16). -/
inductive Dir
  /-- `DIR = 0`, `ENC`. -/
  | encrypt
  /-- `DIR = 1`, `DEC`. -/
  | decrypt
  deriving DecidableEq, Repr

/-- The rows of the opcode table. The first four are the command words (format `CW`, R38, R39): what `Accept` decodes.
The last five are the micro-operations (format `SEQ`, R45): what a step performs. -/
inductive Instr
  /-- `DKS`, derive key schedule (41_key_schedule.md R67). -/
  | dks (len : BitVec 4) (data : Block)
  /-- `ENC`, encrypt block (43_feistel_cipher.md R99). -/
  | enc (len : BitVec 4) (data : Block)
  /-- `DEC`, decrypt block (43_feistel_cipher.md R100). -/
  | dec (len : BitVec 4) (data : Block)
  /-- `OP = 0b00`, the reserved code point; the other 68 bits are ignored (30_encoding.md R46). -/
  | reserved (payload : BitVec 68)
  /-- `KS_INIT(DATA)` (41_key_schedule.md R68). -/
  | ksInit (data : Block)
  /-- `KS_STEP` (41_key_schedule.md R69). -/
  | ksStep
  /-- `BLK_INIT(d, DATA)` (43_feistel_cipher.md R101). -/
  | blkInit (dir : Dir) (data : Block)
  /-- `BLK_ROUND` (43_feistel_cipher.md R102). -/
  | blkRound
  /-- `BLK_FINAL` (43_feistel_cipher.md R103). -/
  | blkFinal
  deriving DecidableEq, Repr

namespace Instr

/-- The document's API names are aliases of the mnemonics (30_encoding.md R49): `deriveKeySchedule` is `DKS`. -/
abbrev deriveKeySchedule (key : Block) : Instr := .dks 8 key

/-- `encryptBlock` is `ENC` (R49). -/
abbrev encryptBlock (block : Block) : Instr := .enc 8 block

/-- `decryptBlock` is `DEC` (R49). -/
abbrev decryptBlock (block : Block) : Instr := .dec 8 block

end Instr

/-- The three mnemonics of the assembler syntax (30_encoding.md R48). -/
inductive Mnemonic
  | dks
  | enc
  | dec
  deriving DecidableEq, Repr

/-- One line of the assembler syntax (30_encoding.md R48). -/
inductive AsmLine
  /-- `<mnemonic>[/<len>] 0x<hex>`: the operand bytes in order, byte 0 first. -/
  | command (mnemonic : Mnemonic) (len : Nat) (operand : List Byte)
  /-- `RAW 0x<18 hex digits>`: a 72-bit number whose top 2 bits must be 0. -/
  | raw (word : Nat)
  deriving DecidableEq, Repr

end Sys2Proof
end

