-- ==== Sys2Proof/WellFormed.lean ====
section
/-! DEFINITION. Which instructions and which assembler lines are well formed. An instruction that is not is no error of
the decoder's: its command word has an outcome (spec/30_encoding.md R44), a fault. -/

namespace Sys2Proof

/-- The check of an operand's size: the only legal `LEN` is 8 (30_encoding.md R40). -/
def lenLegal (len : BitVec 4) : Bool := len == 8

/-- A well-formed instruction: a command with an assigned `OP` (R39) and a legal `LEN` (R40), or a micro-operation. Such
a command word raises neither `IllegalCommand` nor `InvalidLength` (R46). -/
def Instr.wellFormed : Instr → Bool
  | .dks len _ => lenLegal len
  | .enc len _ => lenLegal len
  | .dec len _ => lenLegal len
  | .reserved _ => false
  | .ksInit _ => true
  | .ksStep => true
  | .blkInit _ _ => true
  | .blkRound => true
  | .blkFinal => true

/-- `/<len>` is a decimal number 0 to 15 (30_encoding.md R48). -/
def asmLenLegal (len : Nat) : Bool := len ≤ 15

/-- Two digits a byte, and the bytes beyond the eighth do not exist on the port (30_encoding.md R48). -/
def asmOperandSized (len : Nat) (operand : List Byte) : Bool := operand.length == min len 8

/-- The top 2 bits of a `RAW` word's 72 must be 0 (30_encoding.md R48). -/
def asmRawLegal (word : Nat) : Bool := word < 2 ^ 70

/-- A well-formed assembler line (30_encoding.md R48). -/
def AsmLine.wellFormed : AsmLine → Bool
  | .command _ len operand => asmLenLegal len && asmOperandSized len operand
  | .raw word => asmRawLegal word

end Sys2Proof
end

