-- ==== Sys2Proof/Decode.lean ====
section
/-! DEFINITION. Encodings (spec/30_encoding.md): the command word and its decoder, the selector of a micro-operation, the
encoder, and the assembler syntax of R48. -/

namespace Sys2Proof

/-! ### The fields of a command word (R38) -/

/-- `OP`, bits 69:68. -/
def fieldOp (cw : CommandWord) : BitVec 2 := cw.extractLsb' 68 2

/-- `LEN`, bits 67:64. -/
def fieldLen (cw : CommandWord) : BitVec 4 := cw.extractLsb' 64 4

/-- `DATA`, bits 63:0. -/
def fieldData (cw : CommandWord) : Block := cw.extractLsb' 0 64

/-- The bits under `OP`, which a reserved word ignores (R46). -/
def fieldPayload (cw : CommandWord) : BitVec 68 := cw.extractLsb' 0 68

/-- A command word from its fields: `CW = OP * 2^68 + LEN * 2^64 + DATA` (R48). -/
def commandWord (op : BitVec 2) (len : BitVec 4) (data : Block) : CommandWord := op ++ len ++ data

/-- `OP` of a block command is `0b1d`, `d` the direction (R39). -/
def opOfDir : Dir → BitVec 2
  | .encrypt => 0b10
  | .decrypt => 0b11

/-! ### Decoding -/

/-- What the decoder reads: the two formats of the opcode table. -/
inductive Encoded
  /-- Format `CW`: a command word (R38). -/
  | cw (word : CommandWord)
  /-- Format `SEQ`: the selector of a micro-operation (R45): the 3-bit `PHASE` and, for the two that `Accept` performs,
  the command word it accepts and `KVALID` (the table's selector column). -/
  | seq (phase : BitVec 3) (word : CommandWord) (kvalid : Bool)
  deriving DecidableEq, Repr

/-- Why nothing is decoded. -/
inductive DecodeError
  /-- `PHASE` 4 to 7 select nothing (R45; 70_reset_and_hazards.md R132). -/
  | reservedPhase
  /-- In `IDLE`, a command word whose `Accept` performs no micro-operation: it faults (R44). -/
  | noMicroOperation
  /-- More than the 70 bits of a command word (R38; R48: the top 2 of the 72 bits must be 0). -/
  | tooWide
  deriving DecidableEq, Repr

/-- The command a command word is, by its `OP` field (R39). Total: every one of the `2^70` words is one (R44). -/
def decodeCommand (cw : CommandWord) : Instr :=
  if fieldOp cw = 0b00 then .reserved (fieldPayload cw)
  else if fieldOp cw = 0b01 then .dks (fieldLen cw) (fieldData cw)
  else if fieldOp cw = 0b10 then .enc (fieldLen cw) (fieldData cw)
  else .dec (fieldLen cw) (fieldData cw)

/-- The micro-operation that an `Accept` of `cw` performs, if it does not fault (R44). -/
def decodeAccept (cw : CommandWord) (kvalid : Bool) : Except DecodeError Instr :=
  match decodeCommand cw with
  | .dks len data => if lenLegal len then .ok (.ksInit data) else .error .noMicroOperation
  | .enc len data => if lenLegal len && kvalid then .ok (.blkInit .encrypt data) else .error .noMicroOperation
  | .dec len data => if lenLegal len && kvalid then .ok (.blkInit .decrypt data) else .error .noMicroOperation
  | _ => .error .noMicroOperation

/-- The decoder (R44, R45). -/
def decode : Encoded → Except DecodeError Instr
  | .cw word => .ok (decodeCommand word)
  | .seq phase word kvalid =>
    if phase = 0 then decodeAccept word kvalid
    else if phase = 1 then .ok .ksStep
    else if phase = 2 then .ok .blkRound
    else if phase = 3 then .ok .blkFinal
    else .error .reservedPhase

/-! ### Encoding -/

/-- The encoder: the word of an instruction, from R38, R39 and the table's selector column. -/
def encode : Instr → Encoded
  | .dks len data => .cw (commandWord 0b01 len data)
  | .enc len data => .cw (commandWord 0b10 len data)
  | .dec len data => .cw (commandWord 0b11 len data)
  | .reserved payload => .cw ((0b00 : BitVec 2) ++ payload)
  | .ksInit data => .seq 0 (commandWord 0b01 8 data) false
  | .ksStep => .seq 1 0 false
  | .blkInit dir data => .seq 0 (commandWord (opOfDir dir) 8 data) true
  | .blkRound => .seq 2 0 false
  | .blkFinal => .seq 3 0 false

/-! ### The words of spec/opcode_table.json -/

/-- The encoded form that a table word of `nbits` bits stands for: a `SEQ` row has 3 bits, `PHASE`, the others a `CW`
row's 70. A `SEQ` word has no bits for the command word that an `Accept` reads, so in `IDLE` it is taken to be a `DKS` of 8
bytes, all zero (log 17): the table gives `KS_INIT` and `BLK_INIT` the same three bits, and this reads them as the first. -/
def tableEncoded (nbits w : Nat) : Except DecodeError Encoded :=
  if nbits ≤ 8 then
    if w < 8 then .ok (.seq (BitVec.ofNat 3 w) (commandWord 0b01 8 0) false) else .error .tooWide
  else
    if w < 2 ^ 70 then .ok (.cw (BitVec.ofNat 70 w)) else .error .tooWide

/-- The instruction the decoder reads from a table word. -/
def decodeTableWord (nbits w : Nat) : Option Instr :=
  match tableEncoded nbits w with
  | .ok e =>
    match decode e with
    | .ok i => some i
    | .error _ => none
  | .error _ => none

/-! ### The assembler syntax (R48)

`<mnemonic>[/<len>] 0x<hex>` or `RAW 0x<18 hex digits>`, then an optional `; comment`. The spec does not say which letters
the hex digits use or which spaces are allowed: both cases, and spaces (no tabs) before the line, after it, and at least
one between the words (DESIGN CHOICE, log 13). -/

/-- Why a line is not assembled. -/
inductive AsmError
  /-- The first word is not a mnemonic or `RAW`. -/
  | unknownMnemonic
  /-- `/<len>` is not a decimal number. -/
  | badLength
  /-- The operand is not `0x` and hex digits, two a byte (18 of them for `RAW`), or something follows it. -/
  | badOperand
  /-- The line fails `AsmLine.wellFormed`. -/
  | illFormed
  deriving DecidableEq, Repr

/-- `OP` of a mnemonic (R39). -/
def opOfMnemonic : Mnemonic → BitVec 2
  | .dks => 0b01
  | .enc => 0b10
  | .dec => 0b11

/-- Byte `k` of `DATA` from the operand bytes, zero where there is none (R48). -/
def operandByte (operand : List Byte) (k : Nat) : Byte := operand.getD k 0

/-- `DATA` of an operand: the bytes given fill bytes `0..len-1`, the remaining low bytes are zero (R48). -/
def dataOfOperand (operand : List Byte) : Block :=
  operandByte operand 0 ++ operandByte operand 1 ++ operandByte operand 2 ++ operandByte operand 3 ++
  operandByte operand 4 ++ operandByte operand 5 ++ operandByte operand 6 ++ operandByte operand 7

/-- The command word of an assembler line (R48). -/
def assemble (line : AsmLine) : Except AsmError CommandWord :=
  if line.wellFormed then
    match line with
    | .command m len operand => .ok (commandWord (opOfMnemonic m) (BitVec.ofNat 4 len) (dataOfOperand operand))
    | .raw word => .ok (BitVec.ofNat 70 word)
  else .error .illFormed

/-- The value of a hex digit. -/
def hexDigit (ch : Char) : Option Nat :=
  if '0' ≤ ch ∧ ch ≤ '9' then some (ch.toNat - '0'.toNat)
  else if 'A' ≤ ch ∧ ch ≤ 'F' then some (ch.toNat - 'A'.toNat + 10)
  else if 'a' ≤ ch ∧ ch ≤ 'f' then some (ch.toNat - 'a'.toNat + 10)
  else none

/-- The value of a decimal digit. -/
def decDigit (ch : Char) : Option Nat :=
  if '0' ≤ ch ∧ ch ≤ '9' then some (ch.toNat - '0'.toNat) else none

/-- A number written in `base`, most significant digit first, after `acc`. -/
def readDigits (base : Nat) (digit : Char → Option Nat) : List Char → Nat → Option Nat
  | [], acc => some acc
  | ch :: rest, acc =>
    match digit ch with
    | some d => readDigits base digit rest (acc * base + d)
    | none => none

/-- Bytes written as two hex digits each. -/
def readBytes : List Char → Option (List Byte)
  | [] => some []
  | hi :: lo :: rest =>
    match hexDigit hi, hexDigit lo, readBytes rest with
    | some h, some l, some bytes => some (BitVec.ofNat 8 (h * 16 + l) :: bytes)
    | _, _, _ => none
  | [_] => none

/-- The characters of a line before its comment. -/
def dropComment (line : List Char) : List Char := line.takeWhile (· != ';')

/-- A line's words: what stands between its spaces. -/
def splitWords : List Char → List Char → List (List Char)
  | [], [] => []
  | [], word => [word.reverse]
  | ch :: rest, word =>
    if ch = ' ' then
      match word with
      | [] => splitWords rest []
      | w :: ws => (w :: ws).reverse :: splitWords rest []
    else splitWords rest (ch :: word)

/-- The hex digits of an operand, after `0x`. -/
def hexDigitsOf : List Char → Option (List Char)
  | '0' :: 'x' :: digits => some digits
  | _ => none

/-- The mnemonic of a name. -/
def mnemonicOf : List Char → Option Mnemonic
  | ['D', 'K', 'S'] => some .dks
  | ['E', 'N', 'C'] => some .enc
  | ['D', 'E', 'C'] => some .dec
  | _ => none

/-- `LEN` from what follows the mnemonic: 8 when it is omitted (R48). -/
def readLength : List Char → Option Nat
  | [] => some 8
  | ['/'] => none
  | '/' :: digits => readDigits 10 decDigit digits 0
  | _ => none

/-- `RAW 0x<18 hex digits>` (R48). -/
def parseRaw (operand : List Char) : Except AsmError AsmLine :=
  match hexDigitsOf operand with
  | none => .error .badOperand
  | some digits =>
    if digits.length = 18 then
      match readDigits 16 hexDigit digits 0 with
      | some w => .ok (.raw w)
      | none => .error .badOperand
    else .error .badOperand

/-- `<mnemonic>[/<len>] 0x<hex>` (R48). -/
def parseCommand (head operand : List Char) : Except AsmError AsmLine :=
  match mnemonicOf (head.takeWhile (· != '/')) with
  | none => .error .unknownMnemonic
  | some m =>
    match readLength (head.dropWhile (· != '/')) with
    | none => .error .badLength
    | some len =>
      match hexDigitsOf operand with
      | none => .error .badOperand
      | some digits =>
        match readBytes digits with
        | some bytes => .ok (.command m len bytes)
        | none => .error .badOperand

/-- One line of the assembler syntax (R48). -/
def parseLine (line : List Char) : Except AsmError AsmLine :=
  match splitWords (dropComment line) [] with
  | [['R', 'A', 'W'], operand] => parseRaw operand
  | [head, operand] => parseCommand head operand
  | [head] =>
    match mnemonicOf (head.takeWhile (· != '/')) with
    | some _ => .error .badOperand
    | none => .error .unknownMnemonic
  | _ => .error .badOperand

/-- The command word of a line of text (R48). -/
def assembleText (line : List Char) : Except AsmError CommandWord :=
  match parseLine line with
  | .ok l => assemble l
  | .error e => .error e

end Sys2Proof
end

