-- ==== Sys2Proof/Config.lean ====
section
/-! DEFINITION. What is fixed for the engine (spec/00_scope.md R4), and the free values: the two parameters the spec
leaves open, `RESET_X` and `CYCLES_PER_STEP` (92_eei_decisions.md, "Open parameters left to the model"). -/

namespace Sys2Proof.Config

/-- The number of Feistel rounds and of round keys (R4). -/
def rounds : Nat := 16

/-- Key-schedule slots in the engine (R4, `NSLOTS`): `State` holds this many round-key stores, one. -/
def nslots : Nat := 1

/-- Steps of a `DKS` that is not faulted: 1 accept and 16 rounds (R4, R133). -/
def stepsPerDks : Nat := 17

/-- Steps of an `ENC` or `DEC` that is not faulted: 1 accept, 16 rounds, 1 final (R4, R133). -/
def stepsPerBlock : Nat := 18

/-! `RESET_X` (10_state.md R22, 70_reset_and_hazards.md R125): the value of a register that the spec leaves unspecified
after the `n`-th `Reset` step. DESIGN CHOICE, safe (log 3): uninterpreted, so that no proof can know it. -/

/-- `RK[i]` after the `n`-th reset. -/
opaque resetRK (n i : Nat) : RoundKey

/-- `C` after the `n`-th reset. -/
opaque resetC (n : Nat) : KeyHalf

/-- `D` after the `n`-th reset. -/
opaque resetD (n : Nat) : KeyHalf

/-- `L` after the `n`-th reset. -/
opaque resetL (n : Nat) : Half

/-- `R` after the `n`-th reset. -/
opaque resetR (n : Nat) : Half

/-- `RND` after the `n`-th reset. -/
opaque resetRnd (n : Nat) : BitVec 4

/-- `DIR` after the `n`-th reset, as its one bit (10_state.md R16). -/
opaque resetDir (n : Nat) : BitVec 1

/-- One less than the clock cycles the `n`-th step takes. DESIGN CHOICE, safe (log 11). -/
opaque extraCycles (n : Nat) : Nat

/-- `CYCLES_PER_STEP` (R4, R133; 92 D22): any integer at least 1, constant or not. No rule depends on it and no
definition of the machine reads it. -/
def cyclesPerStep (n : Nat) : Nat := extraCycles n + 1

end Sys2Proof.Config
end

