-- ==== Sys2Proof/Machine/State.lean ====
section
/-! DEFINITION. The state of the engine (spec/10_state.md R10), the reasons a step can stop, and the state after reset
(R22). -/

namespace Sys2Proof.Machine

/-- `PHASE` (10_state.md R17). The reserved values 4 to 7 cannot be represented, which 70_reset_and_hazards.md R132
prefers (DESIGN CHOICE, safe, log 5). -/
inductive Phase
  /-- 0: no command in progress. -/
  | idle
  /-- 1: a `DKS` is in its 16 rounds. -/
  | ks
  /-- 2: an `ENC` or `DEC` is in its 16 rounds. -/
  | blk
  /-- 3: the final permutation is pending. -/
  | fin
  deriving DecidableEq, Repr

/-- What the host drives on the input ports in one step (30_encoding.md R47). -/
structure PortIn where
  /-- `rst`: the step is `Reset`. -/
  rst : Bool
  /-- `cmd_valid`: the host presents a command word. -/
  cmdValid : Bool
  /-- `cmd`: the command word presented. -/
  cmd : CommandWord
  deriving DecidableEq, Repr

/-- The eleven items of R10, in its order, and two fields of the model's own. -/
structure State where
  /-- `RK[0..15]`, the round-key store (R11). -/
  rk : Vector RoundKey 16
  /-- `KVALID`: `rk` holds a complete schedule (R12). -/
  kvalid : Bool
  /-- `C`, left half of the rotating key state (R13). -/
  c : KeyHalf
  /-- `D`, right half of the rotating key state (R13). -/
  d : KeyHalf
  /-- `L`, left half of the block state (R14). -/
  l : Half
  /-- `R`, right half of the block state (R14). -/
  r : Half
  /-- `RND`, the round in progress (R15). -/
  rnd : BitVec 4
  /-- `DIR`, the direction of the block command in progress (R16). -/
  dir : Dir
  /-- `PHASE`, which micro-operation runs next (R17). -/
  phase : Phase
  /-- `RSP`, the last response word (R18). -/
  rsp : ResponseWord
  /-- `rsp_valid`: the last step wrote `RSP` (R10, R43). -/
  rspValid : Bool
  /-- The model's own: what the host drives in each coming step, first first; after the last, nothing (log 1). -/
  inputs : List PortIn
  /-- The model's own: how many `Reset` steps there have been, the number of the next draw of `RESET_X` (log 4). -/
  draws : Nat
  deriving DecidableEq, Repr

/-- No step of this engine stops it: the spec's faults (60_exceptions.md R109) are responses, after which the engine
goes on (R117, R118), so they are next states (log 10), and there are no others (R114). Nothing raises a fault. -/
inductive Fault
  deriving DecidableEq, Repr

/-- Why `exec` gives no next state. -/
inductive Refusal
  /-- Raised by an arm of `exec` that has no meaning yet; no arm is such. Safe: nothing follows of the instruction. -/
  | notModelled (mnemonic : String)
  /-- Raised by the meaning of every instruction asked for in a state where the spec has no such step: a command or
  `KS_INIT` while `PHASE` is not `IDLE` (30_encoding.md R44; 93 U9), `BLK_INIT` unless `PHASE = IDLE` and `KVALID = 1`
  (43 R101), `KS_STEP`, `BLK_ROUND`, `BLK_FINAL` unless `PHASE` selects it (R45). `step` never asks for one. Safe:
  nothing follows (log 7). -/
  | notEnabled
  deriving DecidableEq, Repr

/-- `DIR` from its bit (10_state.md R16): 0 encrypt, 1 decrypt. -/
def dirOfBit (b : BitVec 1) : Dir := if b = 0 then .encrypt else .decrypt

/-- The state after the `n`-th `Reset`, with the host's further inputs (10_state.md R22, 70_reset_and_hazards.md R125):
the four control items at their values, the seven unspecified ones free (log 3). -/
def State.afterReset (n : Nat) (inputs : List PortIn) : State where
  rk := Vector.ofFn fun i => Config.resetRK n i.val
  kvalid := false
  c := Config.resetC n
  d := Config.resetD n
  l := Config.resetL n
  r := Config.resetR n
  rnd := Config.resetRnd n
  dir := dirOfBit (Config.resetDir n)
  phase := .idle
  rsp := 0
  rspValid := false
  inputs := inputs
  draws := n + 1

/-- The machine right after reset (R22): power-up is followed by a reset (R125). The host has presented nothing. -/
def State.reset : State := State.afterReset 0 []

end Sys2Proof.Machine
end

