-- ==== Sys2Proof/Machine/Flags.lean ====
section
/-! DEFINITION. The status of the engine (spec/10_state.md R24): there are no arithmetic flags; what there is are `BUSY`
and `cmd_ready` (R19), the `CODE` field of `RSP` (30_encoding.md R42), `KVALID` and `rsp_valid`. -/

namespace Sys2Proof.Machine

/-- The 3-bit encoding of `PHASE` (10_state.md R17). -/
def Phase.code : Phase → BitVec 3
  | .idle => 0
  | .ks => 1
  | .blk => 2
  | .fin => 3

/-- The one-bit encoding of `DIR` (10_state.md R16). -/
def dirBit : Dir → BitVec 1
  | .encrypt => 0
  | .decrypt => 1

/-- `CODE` (30_encoding.md R42). -/
inductive Code
  | ok
  | invalidLength
  | noSchedule
  | illegalCommand
  deriving DecidableEq, Repr

/-- The two bits of `CODE` (30_encoding.md R42, 60_exceptions.md R109). -/
def codeBits : Code → BitVec 2
  | .ok => 0
  | .invalidLength => 1
  | .noSchedule => 2
  | .illegalCommand => 3

/-- The name of a two-bit `CODE` field: all four are assigned (30_encoding.md R46). -/
def codeOfBits (b : BitVec 2) : Code :=
  if b = 0 then .ok else if b = 1 then .invalidLength else if b = 2 then .noSchedule else .illegalCommand

/-- The `CODE` field of a response word, bits 65:64 (30_encoding.md R42). -/
def responseCode (rw : ResponseWord) : BitVec 2 := rw.extractLsb' 64 2

/-- The `DATA` field of a response word, bits 63:0 (30_encoding.md R42). -/
def responseData (rw : ResponseWord) : Block := rw.extractLsb' 0 64

/-- A response word: `CODE ‖ DATA` (30_encoding.md R42). -/
def responseWord (code : Code) (data : Block) : ResponseWord := codeBits code ++ data

/-- `BUSY` (10_state.md R19). -/
def busy (s : State) : Bool := s.phase != .idle

/-- `cmd_ready` (10_state.md R19). -/
def cmdReady (s : State) : Bool := s.phase == .idle

/-- What the host sees of the engine (30_encoding.md R47): the three output ports, and nothing else (60_exceptions.md
R121). -/
structure PortOut where
  cmdReady : Bool
  rspValid : Bool
  rsp : ResponseWord
  deriving DecidableEq, Repr

/-- The output ports (30_encoding.md R47). -/
def outputs (s : State) : PortOut := { cmdReady := cmdReady s, rspValid := s.rspValid, rsp := s.rsp }

end Sys2Proof.Machine
end

