-- ==== Sys2Proof/Machine/Bits.lean ====
section
/-! DEFINITION. The BitVector and Permutation primitives (spec/40_bitvector_permutation.md) and the rotation of
41_key_schedule.md R60. `X⟨i⟩` is `X.getMsbD i` (00_scope.md R5, R6). -/

namespace Sys2Proof.Machine

/-- `fromBytes` (R50): position `8k + j` is bit `7 - j` of byte `k`. The first byte is the most significant. -/
def fromBytes (b : Vector Byte 8) : Block :=
  b[0] ++ b[1] ++ b[2] ++ b[3] ++ b[4] ++ b[5] ++ b[6] ++ b[7]

/-- Byte `k` of a 64-bit value, its bits `63-8k : 56-8k` (20_memory.md R29). -/
def byteLane (x : Block) (k : Nat) : Byte := x.extractLsb' (56 - 8 * k) 8

/-- `toBytes` (R51): byte `k` is positions `8k` to `8k + 7`, the first of them its most significant bit. -/
def toBytes (x : Block) : Vector Byte 8 := Vector.ofFn fun k => byteLane x k.val

/-- `permute` (R52): `Y⟨i⟩ = X⟨T[i]⟩`, the output as long as the table. `m` is that length (R55). -/
def permute {n : Nat} (m : Nat) (table : List Nat) (x : BitVec n) : BitVec m :=
  (BitVec.ofBoolListBE (table.map x.getMsbD)).setWidth m

/-- `xor` (R53): bitwise exclusive or. -/
def xorBits {n : Nat} (a b : BitVec n) : BitVec n := a ^^^ b

/-- `rotl28` (41_key_schedule.md R60): as a 28-bit number, `((V * 2^s) mod 2^28) + (V div 2^(28-s))`. -/
def rotl28 (h : KeyHalf) (s : Nat) : KeyHalf := h <<< s ||| h >>> (28 - s)

/-- Rotation to the right, the inverse of `rotl28`, for the generator of 41_key_schedule.md R66. -/
def rotr28 (h : KeyHalf) (s : Nat) : KeyHalf := h >>> s ||| h <<< (28 - s)

/-- The left part of a 56-bit value, positions 0 to 27 (41_key_schedule.md R58). -/
def leftKeyHalf (x : BitVec 56) : KeyHalf := x.extractLsb' 28 28

/-- The right part of a 56-bit value, positions 28 to 55 (41_key_schedule.md R58). -/
def rightKeyHalf (x : BitVec 56) : KeyHalf := x.extractLsb' 0 28

/-- The left half of a block state, positions 0 to 31 (43_feistel_cipher.md R94). -/
def leftHalf (x : Block) : Half := x.extractLsb' 32 32

/-- The right half of a block state, positions 32 to 63 (43_feistel_cipher.md R94). -/
def rightHalf (x : Block) : Half := x.extractLsb' 0 32

end Sys2Proof.Machine
end

