-- ==== Sys2Proof/Machine/Tables.lean ====
section
/-! DEFINITION. The constant tables (spec/20_memory.md R28), each as the spec lists it, row by row. They are not state
(10_state.md R20). Their contents are the spec's, which has them from general knowledge of DES (91 N1, 93 G1; log 8); the
rotation counts are the document's (41_key_schedule.md R59). That they are well formed (R54, R55) is a theorem about
them, `tablesValid`, not a branch of a step. -/

namespace Sys2Proof.Machine

/-- Table PC1 (64 to 56), 0-based source positions (41_key_schedule.md R56). -/
def tablePC1 : List Nat :=
  [56, 48, 40, 32, 24, 16, 8] ++
  [0, 57, 49, 41, 33, 25, 17] ++
  [9, 1, 58, 50, 42, 34, 26] ++
  [18, 10, 2, 59, 51, 43, 35] ++
  [62, 54, 46, 38, 30, 22, 14] ++
  [6, 61, 53, 45, 37, 29, 21] ++
  [13, 5, 60, 52, 44, 36, 28] ++
  [20, 12, 4, 27, 19, 11, 3]

/-- Table PC2 (56 to 48), 0-based source positions (41_key_schedule.md R61). -/
def tablePC2 : List Nat :=
  [13, 16, 10, 23, 0, 4] ++
  [2, 27, 14, 5, 20, 9] ++
  [22, 18, 11, 3, 25, 7] ++
  [15, 6, 26, 19, 12, 1] ++
  [40, 51, 30, 36, 46, 54] ++
  [29, 39, 50, 44, 32, 47] ++
  [43, 48, 38, 55, 33, 52] ++
  [45, 41, 49, 35, 28, 31]

/-- Table E (32 to 48), 0-based source positions (42_round_function.md R73). -/
def tableE : List Nat :=
  [31, 0, 1, 2, 3, 4] ++
  [3, 4, 5, 6, 7, 8] ++
  [7, 8, 9, 10, 11, 12] ++
  [11, 12, 13, 14, 15, 16] ++
  [15, 16, 17, 18, 19, 20] ++
  [19, 20, 21, 22, 23, 24] ++
  [23, 24, 25, 26, 27, 28] ++
  [27, 28, 29, 30, 31, 0]

/-- Table P (32 to 32), 0-based source positions (42_round_function.md R88). -/
def tableP : List Nat :=
  [15, 6, 19, 20, 28, 11, 27, 16] ++
  [0, 14, 22, 25, 4, 17, 30, 9] ++
  [1, 7, 23, 13, 31, 26, 2, 8] ++
  [18, 12, 29, 5, 21, 10, 3, 24]

/-- Table IP (64 to 64), 0-based source positions (43_feistel_cipher.md R91). -/
def tableIP : List Nat :=
  [57, 49, 41, 33, 25, 17, 9, 1] ++
  [59, 51, 43, 35, 27, 19, 11, 3] ++
  [61, 53, 45, 37, 29, 21, 13, 5] ++
  [63, 55, 47, 39, 31, 23, 15, 7] ++
  [56, 48, 40, 32, 24, 16, 8, 0] ++
  [58, 50, 42, 34, 26, 18, 10, 2] ++
  [60, 52, 44, 36, 28, 20, 12, 4] ++
  [62, 54, 46, 38, 30, 22, 14, 6]

/-- Table FP (64 to 64), 0-based source positions (43_feistel_cipher.md R92). -/
def tableFP : List Nat :=
  [39, 7, 47, 15, 55, 23, 63, 31] ++
  [38, 6, 46, 14, 54, 22, 62, 30] ++
  [37, 5, 45, 13, 53, 21, 61, 29] ++
  [36, 4, 44, 12, 52, 20, 60, 28] ++
  [35, 3, 43, 11, 51, 19, 59, 27] ++
  [34, 2, 42, 10, 50, 18, 58, 26] ++
  [33, 1, 41, 9, 49, 17, 57, 25] ++
  [32, 0, 40, 8, 48, 16, 56, 24]

/-- The rotation-count table `ROT` (41_key_schedule.md R59): 0 rotates by 1, 1 rotates by 2. -/
def tableROT : List Nat := [0, 0, 1, 1, 1, 1, 1, 1, 0, 1, 1, 1, 1, 1, 1, 0]

/-- `SBOX[0]`, the standard's S1, entry `row*16 + column` (42_round_function.md R78). -/
def tableS0 : List Nat :=
  [14, 4, 13, 1, 2, 15, 11, 8, 3, 10, 6, 12, 5, 9, 0, 7] ++
  [0, 15, 7, 4, 14, 2, 13, 1, 10, 6, 12, 11, 9, 5, 3, 8] ++
  [4, 1, 14, 8, 13, 6, 2, 11, 15, 12, 9, 7, 3, 10, 5, 0] ++
  [15, 12, 8, 2, 4, 9, 1, 7, 5, 11, 3, 14, 10, 0, 6, 13]

/-- `SBOX[1]`, the standard's S2, entry `row*16 + column` (42_round_function.md R79). -/
def tableS1 : List Nat :=
  [15, 1, 8, 14, 6, 11, 3, 4, 9, 7, 2, 13, 12, 0, 5, 10] ++
  [3, 13, 4, 7, 15, 2, 8, 14, 12, 0, 1, 10, 6, 9, 11, 5] ++
  [0, 14, 7, 11, 10, 4, 13, 1, 5, 8, 12, 6, 9, 3, 2, 15] ++
  [13, 8, 10, 1, 3, 15, 4, 2, 11, 6, 7, 12, 0, 5, 14, 9]

/-- `SBOX[2]`, the standard's S3, entry `row*16 + column` (42_round_function.md R80). -/
def tableS2 : List Nat :=
  [10, 0, 9, 14, 6, 3, 15, 5, 1, 13, 12, 7, 11, 4, 2, 8] ++
  [13, 7, 0, 9, 3, 4, 6, 10, 2, 8, 5, 14, 12, 11, 15, 1] ++
  [13, 6, 4, 9, 8, 15, 3, 0, 11, 1, 2, 12, 5, 10, 14, 7] ++
  [1, 10, 13, 0, 6, 9, 8, 7, 4, 15, 14, 3, 11, 5, 2, 12]

/-- `SBOX[3]`, the standard's S4, entry `row*16 + column` (42_round_function.md R81). -/
def tableS3 : List Nat :=
  [7, 13, 14, 3, 0, 6, 9, 10, 1, 2, 8, 5, 11, 12, 4, 15] ++
  [13, 8, 11, 5, 6, 15, 0, 3, 4, 7, 2, 12, 1, 10, 14, 9] ++
  [10, 6, 9, 0, 12, 11, 7, 13, 15, 1, 3, 14, 5, 2, 8, 4] ++
  [3, 15, 0, 6, 10, 1, 13, 8, 9, 4, 5, 11, 12, 7, 2, 14]

/-- `SBOX[4]`, the standard's S5, entry `row*16 + column` (42_round_function.md R82). -/
def tableS4 : List Nat :=
  [2, 12, 4, 1, 7, 10, 11, 6, 8, 5, 3, 15, 13, 0, 14, 9] ++
  [14, 11, 2, 12, 4, 7, 13, 1, 5, 0, 15, 10, 3, 9, 8, 6] ++
  [4, 2, 1, 11, 10, 13, 7, 8, 15, 9, 12, 5, 6, 3, 0, 14] ++
  [11, 8, 12, 7, 1, 14, 2, 13, 6, 15, 0, 9, 10, 4, 5, 3]

/-- `SBOX[5]`, the standard's S6, entry `row*16 + column` (42_round_function.md R83). -/
def tableS5 : List Nat :=
  [12, 1, 10, 15, 9, 2, 6, 8, 0, 13, 3, 4, 14, 7, 5, 11] ++
  [10, 15, 4, 2, 7, 12, 9, 5, 6, 1, 13, 14, 0, 11, 3, 8] ++
  [9, 14, 15, 5, 2, 8, 12, 3, 7, 0, 4, 10, 1, 13, 11, 6] ++
  [4, 3, 2, 12, 9, 5, 15, 10, 11, 14, 1, 7, 6, 0, 8, 13]

/-- `SBOX[6]`, the standard's S7, entry `row*16 + column` (42_round_function.md R84). -/
def tableS6 : List Nat :=
  [4, 11, 2, 14, 15, 0, 8, 13, 3, 12, 9, 7, 5, 10, 6, 1] ++
  [13, 0, 11, 7, 4, 9, 1, 10, 14, 3, 5, 12, 2, 15, 8, 6] ++
  [1, 4, 11, 13, 12, 3, 7, 14, 10, 15, 6, 8, 0, 5, 9, 2] ++
  [6, 11, 13, 8, 1, 4, 10, 7, 9, 5, 0, 15, 14, 2, 3, 12]

/-- `SBOX[7]`, the standard's S8, entry `row*16 + column` (42_round_function.md R85). -/
def tableS7 : List Nat :=
  [13, 2, 8, 4, 6, 15, 11, 1, 10, 9, 3, 14, 5, 0, 12, 7] ++
  [1, 15, 13, 8, 10, 3, 7, 4, 12, 5, 6, 11, 0, 14, 9, 2] ++
  [7, 11, 4, 1, 9, 12, 14, 2, 0, 6, 10, 13, 15, 3, 5, 8] ++
  [2, 1, 14, 7, 4, 10, 8, 13, 15, 12, 9, 0, 3, 5, 6, 11]

/-- `SBOX[0..7]` (42_round_function.md R77). -/
def tableSBOX : List (List Nat) :=
  [tableS0, tableS1, tableS2, tableS3, tableS4, tableS5, tableS6, tableS7]

/-- A permutation table is well formed: the length of R55 and every entry a position of the input (R54). -/
def permTableValid (n m : Nat) (t : List Nat) : Bool := t.length == m && t.all (· < n)

/-- An S-box is well formed: 64 entries, each in `0..15` (R54). -/
def sboxValid (t : List Nat) : Bool := t.length == 64 && t.all (· < 16)

/-- `ROT` is well formed: 16 entries, each 0 or 1 (R54). -/
def rotValid (t : List Nat) : Bool := t.length == 16 && t.all (· < 2)

/-- The check of 40_bitvector_permutation.md R54 on every table, at the lengths of R55. A table that fails it is the
document's `InvalidTable`, which no step raises (60_exceptions.md R113). -/
def tablesValid : Bool :=
  permTableValid 64 56 tablePC1 && permTableValid 56 48 tablePC2 && permTableValid 32 48 tableE &&
  permTableValid 32 32 tableP && permTableValid 64 64 tableIP && permTableValid 64 64 tableFP &&
  tableSBOX.length == 8 && tableSBOX.all sboxValid && rotValid tableROT

end Sys2Proof.Machine
end

