-- ==== Sys2Proof/Machine/Operands.lean ====
section
/-! DEFINITION. Operand assembly (spec/30_encoding.md R40, R41): how `LEN` and `DATA` of a command word become the operand
of a micro-operation, and the pure functions of an operand: the halves it is split into. -/

namespace Sys2Proof.Machine

/-- The only legal operand size in bytes (R40). -/
def legalLen : BitVec 4 := 8

/-- The host supplies an operand of exactly 8 bytes (R40; 20_memory.md R31). -/
def operandSized (len : BitVec 4) : Bool := len == legalLen

/-- The operand as a bit sequence: `fromBytes` of the byte lanes of `DATA` (R41). Position `p` is `DATA[63-p]`. -/
def operandBits (data : Block) : Block := fromBytes (toBytes data)

/-- `CD_0`: PC1 of the key (41_key_schedule.md R57). -/
def permutedKey (data : Block) : BitVec 56 := permute 56 tablePC1 (operandBits data)

/-- `S_0`: IP of the block (43_feistel_cipher.md R94). -/
def initialBlock (data : Block) : Block := permute 64 tableIP (operandBits data)

/-- `OUT` (43_feistel_cipher.md R97): FP of the halves swapped, `R` first. -/
def finalBlock (l r : Half) : Block := permute 64 tableFP (r ++ l)

/-- `RND` as the round number it holds, `0..15` (10_state.md R15). -/
def roundNumber (rnd : BitVec 4) : Nat := rnd.toNat

/-- The rotation amount of round `i`, `ROT[i] + 1` (41_key_schedule.md R59). -/
def shiftAmount (i : Nat) : Nat := tableROT.getD i 0 + 1

/-- The entry of the round-key store that round `rnd` of a block command reads (43_feistel_cipher.md R96): the round's
own number when encrypting, `15 -` it when decrypting. -/
def keyIndex (dir : Dir) (rnd : BitVec 4) : BitVec 4 :=
  match dir with
  | .encrypt => rnd
  | .decrypt => 15 - rnd

end Sys2Proof.Machine
end

