-- ==== Sys2Proof/Machine/Ops.lean ====
section
/-! DEFINITION. The shared operations over the state: the round-key store (spec/20_memory.md R27), the response
(30_encoding.md R43), taking a fault (60_exceptions.md R117), the `Reset` step (70_reset_and_hazards.md R125), the input
ports (30_encoding.md R47), and the guard that says in which states a step exists (R44, R45). -/

namespace Sys2Proof.Machine

/-- `RK[i]` (20_memory.md R27). -/
def State.readRK (s : State) (i : BitVec 4) : RoundKey := s.rk[i.toNat]

/-- `RK[i] <- v`: all 48 bits of entry `i` (20_memory.md R27). -/
def State.writeRK (s : State) (i : BitVec 4) (v : RoundKey) : State := { s with rk := s.rk.set i.toNat v }

/-- `respond(code, data)` (30_encoding.md R43). -/
def State.respond (s : State) (code : Code) (data : Block) : State :=
  { s with rsp := responseWord code data, rspValid := true }

/-- The other half of R43: a step that does not respond sets `rsp_valid` to 0 and leaves `RSP`. -/
def State.noResponse (s : State) : State := { s with rspValid := false }

/-- The faults that `Accept` raises (60_exceptions.md R109). `InvalidTable`, the fourth, has no code and is raised by no
step (R113): see `tablesValid`. -/
inductive Raised
  /-- `OP = 0b00` (R112). -/
  | illegalCommand
  /-- `LEN != 8` (R110). -/
  | invalidLength
  /-- `KVALID = 0` (R111). -/
  | noSchedule
  deriving DecidableEq, Repr

/-- The code of a fault (60_exceptions.md R109). -/
def faultCode : Raised → Code
  | .illegalCommand => .illegalCommand
  | .invalidLength => .invalidLength
  | .noSchedule => .noSchedule

/-- `raise F` (60_exceptions.md R117): taking a fault. It responds with the code and zero data and does nothing else:
no handler, nothing saved, `PHASE` stays `IDLE`. There is no return from it (R118): the engine is ready. -/
def State.raise (s : State) (fault : Raised) : State := s.respond (faultCode fault) 0

/-- The `Reset` step (70_reset_and_hazards.md R125): the reset values, whatever the state was. The host's further inputs
stay, and the unspecified registers are drawn afresh. -/
def State.resetStep (s : State) : State := State.afterReset s.draws s.inputs

/-- A step in which the host drives nothing. -/
def PortIn.quiet : PortIn := { rst := false, cmdValid := false, cmd := 0 }

/-- A step in which the host presents the command word `cw` (30_encoding.md R47). -/
def PortIn.present (cw : CommandWord) : PortIn := { rst := false, cmdValid := true, cmd := cw }

/-- A step in which the host asserts `rst`. -/
def PortIn.reset : PortIn := { rst := true, cmdValid := false, cmd := 0 }

/-- What the host drives in the coming step (30_encoding.md R47). -/
def State.port (s : State) : PortIn := s.inputs.headD PortIn.quiet

/-- The coming step's inputs are used up. -/
def State.advanceInputs (s : State) : State := { s with inputs := s.inputs.tail }

/-- A step that exists only under a condition on the state (30_encoding.md R44, R45): where the condition fails the spec
has no such step (93 U9), and the meaning stops by name (log 7). -/
def whenEnabled (enabled : Bool) (next : State) : Host.Outcome State Fault Refusal :=
  if enabled then .next next else .refused .notEnabled

end Sys2Proof.Machine
end

