-- ==== Sys2Proof/Machine/RoundFunction.lean ====
section
/-! DEFINITION. The round function `f` (spec/42_round_function.md). It is combinational: it reads and writes no state
(R72). -/

namespace Sys2Proof.Machine

/-- Group `g` of the 48-bit value, positions `6g` to `6g + 5` (R76). -/
def sboxGroup (x : BitVec 48) (g : Nat) : BitVec 6 := x.extractLsb' (42 - 6 * g) 6

/-- The row of a group, its first and last bits, the first the high one (R77). -/
def sboxRow (v : BitVec 6) : Nat := 2 * (v.getMsbD 0).toNat + (v.getMsbD 5).toNat

/-- The column of a group, its inner four bits, the earliest the high one (R77). -/
def sboxColumn (v : BitVec 6) : Nat :=
  8 * (v.getMsbD 1).toNat + 4 * (v.getMsbD 2).toNat + 2 * (v.getMsbD 3).toNat + (v.getMsbD 4).toNat

/-- The index of a group in its S-box, `row*16 + column` (R77): not the group's own value (90_conflicts.md C3). -/
def sboxIndex (v : BitVec 6) : Nat := sboxRow v * 16 + sboxColumn v

/-- `SBOX[g][a]` (R77 to R85) as a 4-bit value. -/
def sboxEntry (g a : Nat) : BitVec 4 := BitVec.ofNat 4 ((tableSBOX.getD g []).getD a 0)

/-- Lane `g` (R86): the nibble `N_g`, from group `g` and table `g` alone. -/
def sboxLane (x : BitVec 48) (g : Nat) : BitVec 4 := sboxEntry g (sboxIndex (sboxGroup x g))

/-- Steps 3 to 5: the eight nibbles, the first S-box's the most significant (R87). -/
def substitute (x : BitVec 48) : Half :=
  sboxLane x 0 ++ sboxLane x 1 ++ sboxLane x 2 ++ sboxLane x 3 ++
  sboxLane x 4 ++ sboxLane x 5 ++ sboxLane x 6 ++ sboxLane x 7

/-- Step 1: `permute(Rh, E)` (R74). -/
def expand (rh : Half) : BitVec 48 := permute 48 tableE rh

/-- The round function (R89). -/
def f (rh : Half) (k : RoundKey) : Half := permute 32 tableP (substitute (xorBits (expand rh) k))

end Sys2Proof.Machine
end

