-- ==== Sys2Proof/Machine/FeistelCipher.lean ====
section
/-! DEFINITION. The Feistel cipher (spec/43_feistel_cipher.md): the pure function `DES` (R98), and the micro-operations
`BLK_INIT` (R101), `BLK_ROUND` (R102), `BLK_FINAL` (R103). -/

namespace Sys2Proof.Machine

/-- One round (R95): both new halves from the old ones. -/
def feistelRound (k : RoundKey) (lr : Half × Half) : Half × Half := (lr.2, xorBits lr.1 (f lr.2 k))

/-- The round key of round `i` of a block command (R96, R98). -/
def keyOfRound (dir : Dir) (ks : Vector RoundKey 16) (i : BitVec 4) : RoundKey := ks[(keyIndex dir i).toNat]

/-- The halves `(L_i, R_i)` after `i` rounds (R94, R95, R98). -/
def blockHalves (dir : Dir) (ks : Vector RoundKey 16) (block : Block) : Nat → Half × Half
  | 0 => (leftHalf (initialBlock block), rightHalf (initialBlock block))
  | i + 1 => feistelRound (keyOfRound dir ks (BitVec.ofNat 4 i)) (blockHalves dir ks block i)

/-- `DES(dir, K, block)` (R98): IP, sixteen rounds, the swap, FP. -/
def des (dir : Dir) (ks : Vector RoundKey 16) (block : Block) : Block :=
  finalBlock (blockHalves dir ks block 16).1 (blockHalves dir ks block 16).2

/-- The effect of `BLK_INIT(d, DATA)` (R101). -/
def blkInit (dir : Dir) (data : Block) (s : State) : State :=
  { s with
    l := leftHalf (initialBlock data)
    r := rightHalf (initialBlock data)
    rnd := 0
    dir := dir
    phase := .blk }.noResponse

/-- The effect of `BLK_ROUND` (R102). -/
def blkRound (s : State) : State :=
  let k := s.readRK (keyIndex s.dir s.rnd)
  let lr := feistelRound k (s.l, s.r)
  if s.rnd = 15 then
    { s with l := lr.1, r := lr.2, rnd := 0, phase := .fin }.noResponse
  else
    { s with l := lr.1, r := lr.2, rnd := s.rnd + 1 }.noResponse

/-- The effect of `BLK_FINAL` (R103). `L`, `R`, `RND`, `DIR` keep their values. -/
def blkFinal (s : State) : State :=
  { s with phase := .idle }.respond .ok (finalBlock s.l s.r)

/-- `BLK_INIT`: the arm of `Accept` for an `ENC` or `DEC` of 8 bytes with a schedule, so it exists while `PHASE = IDLE`
and `KVALID = 1` (R101). -/
def execBlkInit (dir : Dir) (data : Block) (s : State) : Host.Outcome State Fault Refusal :=
  whenEnabled (s.phase == .idle && s.kvalid) (blkInit dir data s)

/-- `BLK_ROUND`: the `Tick` taken when `PHASE = BLK` (R102). -/
def execBlkRound (s : State) : Host.Outcome State Fault Refusal :=
  whenEnabled (s.phase == .blk) (blkRound s)

/-- `BLK_FINAL`: the `Tick` taken when `PHASE = FIN` (R103). -/
def execBlkFinal (s : State) : Host.Outcome State Fault Refusal :=
  whenEnabled (s.phase == .fin) (blkFinal s)

end Sys2Proof.Machine
end

