-- ==== Sys2Proof/Machine/KeySchedule.lean ====
section
/-! DEFINITION. The key schedule (spec/41_key_schedule.md): the pure function `KS` (R62), the generator of R66 that the
hardware does not use, and the micro-operations `KS_INIT` (R68) and `KS_STEP` (R69). -/

namespace Sys2Proof.Machine

/-- The halves `(C_i, D_i)` after `i` rounds (R62): PC1 and the split, then one rotation a round, each of the halves left
by the round before. -/
def keyHalves (key : Block) : Nat → KeyHalf × KeyHalf
  | 0 => (leftKeyHalf (permutedKey key), rightKeyHalf (permutedKey key))
  | i + 1 => (rotl28 (keyHalves key i).1 (shiftAmount i), rotl28 (keyHalves key i).2 (shiftAmount i))

/-- PC2 of the two halves, `C` first (R58, R61). -/
def compress (c d : KeyHalf) : RoundKey := permute 48 tablePC2 (c ++ d)

/-- `K[i]` (R62): PC2 of the halves after round `i`'s rotation. -/
def roundKey (key : Block) (i : Nat) : RoundKey := compress (keyHalves key (i + 1)).1 (keyHalves key (i + 1)).2

/-- `KS(key)`: the sixteen round keys in generation order (R62, R63). -/
def keySchedule (key : Block) : Vector RoundKey 16 := Vector.ofFn fun i => roundKey key i.val

/-- The total rotation after round `i` (R59). -/
def totalShift (i : Nat) : Nat := ((List.range (i + 1)).map shiftAmount).sum

/-- The right rotations of the generator of R66: `rshift(0) = 0`, `rshift(j) = shift(16 - j)`. -/
def rshiftAmount (j : Nat) : Nat := if j = 0 then 0 else shiftAmount (16 - j)

/-- The halves of the generator of R66 before its round `j`: it starts from `C_0, D_0` and rotates right. -/
def reverseHalves (key : Block) : Nat → KeyHalf × KeyHalf
  | 0 => keyHalves key 0
  | j + 1 => (rotr28 (reverseHalves key j).1 (rshiftAmount j), rotr28 (reverseHalves key j).2 (rshiftAmount j))

/-- What the generator of R66 emits in its round `j`. The hardware does not use it. -/
def reverseRoundKey (key : Block) (j : Nat) : RoundKey :=
  compress (reverseHalves key (j + 1)).1 (reverseHalves key (j + 1)).2

/-- The effect of `KS_INIT(DATA)` (R68). -/
def ksInit (data : Block) (s : State) : State :=
  { s with
    c := leftKeyHalf (permutedKey data)
    d := rightKeyHalf (permutedKey data)
    rnd := 0
    kvalid := false
    phase := .ks }.noResponse

/-- One rotation of both halves and the round key stored (R69), without the counting. -/
def rotateAndStore (s : State) : State :=
  let c' := rotl28 s.c (shiftAmount (roundNumber s.rnd))
  let d' := rotl28 s.d (shiftAmount (roundNumber s.rnd))
  { s with c := c', d := d' }.writeRK s.rnd (compress c' d')

/-- The effect of `KS_STEP` (R69). -/
def ksStep (s : State) : State :=
  if s.rnd = 15 then
    ({ rotateAndStore s with rnd := 0, kvalid := true, phase := .idle }).respond .ok 0
  else
    ({ rotateAndStore s with rnd := s.rnd + 1 }).noResponse

/-- `KS_INIT`: the arm of `Accept` for a `DKS` of 8 bytes, so it exists while `PHASE = IDLE` (R68). -/
def execKsInit (data : Block) (s : State) : Host.Outcome State Fault Refusal :=
  whenEnabled (s.phase == .idle) (ksInit data s)

/-- `KS_STEP`: the `Tick` taken when `PHASE = KS` (R69). -/
def execKsStep (s : State) : Host.Outcome State Fault Refusal :=
  whenEnabled (s.phase == .ks) (ksStep s)

end Sys2Proof.Machine
end

