-- ==== Sys2Proof/Machine/Commands.lean ====
section
/-! DEFINITION. The command words: what `Accept` does with each (spec/30_encoding.md R44). A command that is accepted
runs on in the `Tick`s that `PHASE` selects (R45); that they compute the transactions of 41 R67, 43 R99 and R100 is what
R70 and R104 claim (log 6). -/

namespace Sys2Proof.Machine

/-- `Accept` of `DKS` (R44; 41_key_schedule.md R67): `InvalidLength`, else `KS_INIT`. -/
def acceptDks (len : BitVec 4) (data : Block) (s : State) : State :=
  if operandSized len then ksInit data s else s.raise .invalidLength

/-- `Accept` of a block command (R44; 43_feistel_cipher.md R99, R100): `InvalidLength`, then `NoSchedule`, else
`BLK_INIT`. -/
def acceptBlock (dir : Dir) (len : BitVec 4) (data : Block) (s : State) : State :=
  if operandSized len then
    if s.kvalid then blkInit dir data s else s.raise .noSchedule
  else s.raise .invalidLength

/-- `DKS` (41_key_schedule.md R67). -/
def execDks (len : BitVec 4) (data : Block) (s : State) : Host.Outcome State Fault Refusal :=
  whenEnabled (s.phase == .idle) (acceptDks len data s)

/-- `ENC` (43_feistel_cipher.md R99): direction 0. -/
def execEnc (len : BitVec 4) (data : Block) (s : State) : Host.Outcome State Fault Refusal :=
  whenEnabled (s.phase == .idle) (acceptBlock .encrypt len data s)

/-- `DEC` (43_feistel_cipher.md R100): direction 1. -/
def execDec (len : BitVec 4) (data : Block) (s : State) : Host.Outcome State Fault Refusal :=
  whenEnabled (s.phase == .idle) (acceptBlock .decrypt len data s)

/-- The reserved code point (60_exceptions.md R112): `IllegalCommand`, whatever the other 68 bits are. -/
def execReserved (_payload : BitVec 68) (s : State) : Host.Outcome State Fault Refusal :=
  whenEnabled (s.phase == .idle) (s.raise .illegalCommand)

end Sys2Proof.Machine
end

