-- ==== Sys2Proof/Machine/Dispatch.lean ====
section
/-! DEFINITION. One arm for each row of spec/opcode_table.json. -/

namespace Sys2Proof.Machine

def exec (i : Instr) (s : State) : Host.Outcome State Fault Refusal :=
  match i with
  -- the command words (format CW)
  | .dks len data => Sys2Proof.Machine.execDks len data s
  | .enc len data => Sys2Proof.Machine.execEnc len data s
  | .dec len data => Sys2Proof.Machine.execDec len data s
  | .reserved payload => Sys2Proof.Machine.execReserved payload s
  -- the micro-operations (format SEQ)
  | .ksInit data => Sys2Proof.Machine.execKsInit data s
  | .ksStep => Sys2Proof.Machine.execKsStep s
  | .blkInit dir data => Sys2Proof.Machine.execBlkInit dir data s
  | .blkRound => Sys2Proof.Machine.execBlkRound s
  | .blkFinal => Sys2Proof.Machine.execBlkFinal s

end Sys2Proof.Machine
end

