-- ==== Sys2Proof/Machine/Step.lean ====
section
/-! DEFINITION. One step of the machine (spec/00_scope.md R8): `Reset`, `Accept` of the command word presented, or `Tick`,
as the input ports and `PHASE` say (30_encoding.md R44, R45, R47; 70_reset_and_hazards.md R125). -/

namespace Sys2Proof.Machine

/-- What the coming step decodes, unless it is `Reset`: in `IDLE` the command word presented, if one is (R44), otherwise
the micro-operation that `PHASE` selects (R45). A command presented while busy is not looked at (R47). -/
def State.fetch (s : State) : Option Encoded :=
  match s.phase with
  | .idle => if s.port.cmdValid then some (.cw s.port.cmd) else none
  | _ => some (.seq s.phase.code s.port.cmd s.kvalid)

/-- One step. With `PHASE = IDLE` and nothing presented no step is enabled and the engine keeps all its state (R47;
60_exceptions.md R124): only the host's inputs go on (log 2). The last arm is never reached: `PHASE` has no value that
selects nothing. -/
def step (s : State) : Host.Outcome State Fault Refusal :=
  if s.port.rst then .next s.advanceInputs.resetStep
  else
    match s.fetch with
    | none => .next s.advanceInputs
    | some e =>
      match decode e with
      | .ok i => exec i s.advanceInputs
      | .error _ => .refused .notEnabled

/-- `PHASE` from its 3-bit encoding (10_state.md R17). The reserved codes 4 to 7 give none: 70_reset_and_hazards.md R132
puts a state with one outside the spec, and never lets it stand for `IDLE`. -/
def phaseOfCode (p : BitVec 3) : Option Phase :=
  if p = 0 then some .idle
  else if p = 1 then some .ks
  else if p = 2 then some .blk
  else if p = 3 then some .fin
  else none

/-- The host drives `p` in the coming step. -/
def State.withPort (s : State) (p : PortIn) : State := { s with inputs := p :: s.inputs.tail }

/-- The state whose coming step performs what a table word stands for (log 15, log 17): a command word is presented to an
idle engine; a `SEQ` row's `PHASE` is put in `PHASE` and, because (`PHASE`, `RND`) stands where a program counter would
(10_state.md R17), round 0 in `RND`; for `PHASE = IDLE` the command word of `tableEncoded` is presented. A word that
stands for nothing, one that is too wide or has a reserved `PHASE` (R132), leaves the state as it is (DESIGN CHOICE,
safe, log 17). -/
def State.withFetchWord (s : State) (nbits w : Nat) : State :=
  match tableEncoded nbits w with
  | .ok (.cw word) => { s with phase := .idle }.withPort (PortIn.present word)
  | .ok (.seq code word _) =>
    match phaseOfCode code with
    | some .idle => { s with phase := .idle, rnd := 0 }.withPort (PortIn.present word)
    | some phase => { s with phase := phase, rnd := 0 }.withPort PortIn.quiet
    | none => s
  | .error _ => s

end Sys2Proof.Machine
end

