-- ==== Sys2Proof/Safety.lean ====
section
/-! DEFINITION. What the claims speak of: runs, which steps exist, the invariants of the engine, what a good end of a
host's program is, and when two states look the same to the host. -/

namespace Sys2Proof.Machine

/-- `k` steps, stopping at the first that gives no next state. -/
def run : Nat → State → Host.Outcome State Fault Refusal
  | 0, s => .next s
  | k + 1, s =>
    match step s with
    | .next s' => run k s'
    | .fault r => .fault r
    | .refused r => .refused r

/-- The host asserts `rst` in none of the coming `k` steps. -/
def noReset (k : Nat) (s : State) : Prop := ∀ p ∈ s.inputs.take k, p.rst = false

/-- The states in which a step that performs the instruction exists (spec/30_encoding.md R44, R45; 41 R68; 43 R101). -/
def enabled : Instr → State → Bool
  | .dks _ _, s => s.phase == .idle
  | .enc _ _, s => s.phase == .idle
  | .dec _ _, s => s.phase == .idle
  | .reserved _, s => s.phase == .idle
  | .ksInit _, s => s.phase == .idle
  | .ksStep, s => s.phase == .ks
  | .blkInit _ _, s => s.phase == .idle && s.kvalid
  | .blkRound, s => s.phase == .blk
  | .blkFinal, s => s.phase == .fin

/-- How many `Tick`s are left before `IDLE` (30_encoding.md R45). -/
def ticksLeft (s : State) : Nat :=
  match s.phase with
  | .idle => 0
  | .ks => 16 - s.rnd.toNat
  | .blk => 17 - s.rnd.toNat
  | .fin => 1

/-- The last step's response was a fault (30_encoding.md R42). The engine remembers no earlier one (60_exceptions.md
R118), so a claim about a whole run says this of every state of the run. -/
def faultReported (s : State) : Bool := s.rspValid && responseCode s.rsp != 0

/-- A good end of a host's program: idle, a schedule in place, and the last response no fault. `NoSchedule` is never one
(60_exceptions.md R111). -/
def goodEnd (s : State) : Bool := s.phase == .idle && s.kvalid && !faultReported s

/-- The control invariant: what the sequencing registers promise each other. -/
structure ControlInv (s : State) : Prop where
  /-- A block command in progress has a schedule (43_feistel_cipher.md R102). -/
  block_has_schedule : s.phase = .blk ∨ s.phase = .fin → s.kvalid = true
  /-- While a schedule is being written none is valid (10_state.md R12). -/
  derivation_invalidates : s.phase = .ks → s.kvalid = false
  /-- The final permutation is pending only after round 15, which leaves `RND = 0` (43_feistel_cipher.md R102). -/
  final_after_rounds : s.phase = .fin → s.rnd = 0
  /-- The step that responds is the one that completes the command (10_state.md R18). -/
  response_when_idle : s.rspValid = true → s.phase = .idle
  /-- A response that is not `OK` carries no data (30_encoding.md R42, R46). -/
  fault_without_data : responseCode s.rsp ≠ 0 → responseData s.rsp = 0

/-- The schedule invariant (10_state.md R12; 41_key_schedule.md R63, R70): a valid store is the schedule of some key, and
a store that is being written has the round keys before `RND` of some key, whose halves after `RND` rounds are in `C` and
`D`. -/
structure ScheduleInv (s : State) : Prop where
  valid_is_schedule : s.kvalid = true → ∃ key, s.rk = keySchedule key
  progress : s.phase = .ks →
    ∃ key, (s.c, s.d) = keyHalves key s.rnd.toNat ∧
      ∀ i : Fin 16, i.val < s.rnd.toNat → s.rk[i] = roundKey key i.val

/-- The invariant of the engine. -/
def Inv (s : State) : Prop := ControlInv s ∧ ScheduleInv s

/-- The coming step ends the stored schedule: it is `Reset`, or the `Accept` of a `DKS` of 8 bytes (41_key_schedule.md R71).
A `DKS` presented while busy is not accepted (30_encoding.md R47), one of another size changes nothing (60 R110). -/
def rekeys (s : State) : Bool :=
  s.port.rst || (s.phase == .idle && s.port.cmdValid && fieldOp s.port.cmd == 0b01 && fieldLen s.port.cmd == 8)

/-- None of the coming `n` steps ends the stored schedule. -/
def noRekey (n : Nat) (s : State) : Prop := ∀ j < n, ∀ w, run j s = .next w → rekeys w = false

/-- The block command of a direction (30_encoding.md R39). -/
def blockCommand : Dir → BitVec 4 → Block → Instr
  | .encrypt => .enc
  | .decrypt => .dec

/-- The other direction. -/
def otherDir : Dir → Dir
  | .encrypt => .decrypt
  | .decrypt => .encrypt

/-- Two idle states that may differ in nothing but what the spec calls unobservable (10_state.md R23, R25): the working
registers, the number of the next draw, and, where there is no schedule, the store. -/
structure SameToHost (s₁ s₂ : State) : Prop where
  idle₁ : s₁.phase = .idle
  idle₂ : s₂.phase = .idle
  kvalid : s₁.kvalid = s₂.kvalid
  rk : s₁.kvalid = true → s₁.rk = s₂.rk
  rsp : s₁.rsp = s₂.rsp
  rspValid : s₁.rspValid = s₂.rspValid
  inputs : s₁.inputs = s₂.inputs

/-- `SameToHost` in any phase: the two states agree in what the ports show and in every register that a later step reads
before it is written (10_state.md R23, R25): the schedule and its mark, but for what a `DKS` in progress has still to
write; and the working registers of the command in progress. -/
structure Indistinguishable (s₁ s₂ : State) : Prop where
  phase : s₁.phase = s₂.phase
  rsp : s₁.rsp = s₂.rsp
  rspValid : s₁.rspValid = s₂.rspValid
  inputs : s₁.inputs = s₂.inputs
  kvalid : s₁.phase ≠ .ks → s₁.kvalid = s₂.kvalid
  rk : s₁.phase ≠ .ks → s₁.kvalid = true → s₁.rk = s₂.rk
  /-- `DKS`: `C`, `D`, `RND`, and the entries written so far. -/
  ks : s₁.phase = .ks → s₁.c = s₂.c ∧ s₁.d = s₂.d ∧ s₁.rnd = s₂.rnd ∧
    ∀ i : Fin 16, i.val < s₁.rnd.toNat → s₁.rk[i] = s₂.rk[i]
  /-- The rounds of a block command: a schedule, `L`, `R`, `RND`, `DIR`. -/
  blk : s₁.phase = .blk → s₁.kvalid = true ∧ s₁.l = s₂.l ∧ s₁.r = s₂.r ∧ s₁.rnd = s₂.rnd ∧ s₁.dir = s₂.dir
  /-- The final permutation: `L`, `R`. -/
  fin : s₁.phase = .fin → s₁.l = s₂.l ∧ s₁.r = s₂.r

end Sys2Proof.Machine
end

