-- ==== Sys2Proof/Certificates/Slice0/Obligations.lean ====
section
/-! DEFINITION. The statements for the provers. `X⟨p⟩` of the spec is `X.getMsbD p`. An equation `exec i s = .next { s with
… }` states the result and the frame at once: every field not named is unchanged, and every entry of `RK` that is not
named. -/

open Sys2Proof Sys2Proof.Machine

/-! ### Tables and primitives -/

/-- R54, R55: every table has its length, its entries are in range, and it has the shape R55 gives it: PC1 and PC2 drop
eight positions and repeat none, P, IP and FP are bijections, E names every position and 16 of them twice. -/
def Obligations.TablesAreWellFormed : Prop :=
  (tablePC1.length = 56 ∧ (∀ p ∈ tablePC1, p < 64) ∧ tablePC1.Nodup) ∧
  (tablePC2.length = 48 ∧ (∀ p ∈ tablePC2, p < 56) ∧ tablePC2.Nodup) ∧
  (tableE.length = 48 ∧ (∀ p ∈ tableE, p < 32) ∧ (∀ p < 32, tableE.count p = if p % 4 = 0 ∨ p % 4 = 3 then 2 else 1)) ∧
  (tableP.length = 32 ∧ (∀ p ∈ tableP, p < 32) ∧ tableP.Nodup) ∧
  (tableIP.length = 64 ∧ (∀ p ∈ tableIP, p < 64) ∧ tableIP.Nodup) ∧
  (tableFP.length = 64 ∧ (∀ p ∈ tableFP, p < 64) ∧ tableFP.Nodup) ∧
  (tableSBOX.length = 8 ∧ ∀ t ∈ tableSBOX, t.length = 64 ∧ ∀ e ∈ t, e < 16) ∧
  (tableROT.length = 16 ∧ ∀ b ∈ tableROT, b = 0 ∨ b = 1)

/-- R52: `Y⟨i⟩ = X⟨T[i]⟩`, and a table undone by another. -/
def Obligations.PermuteSelectsPositions : Prop :=
  (∀ (n m : Nat) (t : List Nat) (x : BitVec n), t.length = m →
    ∀ i < m, (permute m t x).getMsbD i = x.getMsbD (t.getD i 0)) ∧
  (∀ (n : Nat) (t u : List Nat) (x : BitVec n), t.length = n → u.length = n →
    (∀ i < n, u.getD i 0 < n ∧ t.getD (u.getD i 0) 0 = i) → permute n u (permute n t x) = x) ∧
  permute 5 [1, 0, 3, 3, 2] (0b1011 : BitVec 4) = 0b01111 ∧ permute 3 [1, 1, 3] (0b1011 : BitVec 4) = 0b001

/-- R50, R51: position `8k + j` is bit `7 - j` of byte `k`, in both directions, and the two functions undo each other. -/
def Obligations.BytesRoundTrip : Prop :=
  (∀ (b : Vector Byte 8) (k : Fin 8) (j : Nat), j < 8 → (fromBytes b).getMsbD (8 * k.val + j) = b[k].getLsbD (7 - j)) ∧
  (∀ (x : Block) (k : Fin 8) (j : Nat), j < 8 → (toBytes x)[k].getLsbD (7 - j) = x.getMsbD (8 * k.val + j)) ∧
  (∀ b : Vector Byte 8, toBytes (fromBytes b) = b) ∧
  (∀ x : Block, fromBytes (toBytes x) = x)

/-- R93: IP and FP undo each other, as tables and as permutations. -/
def Obligations.FinalInvertsInitial : Prop :=
  (∀ i < 64, tableFP.getD (tableIP.getD i 0) 0 = i) ∧
  (∀ i < 64, tableIP.getD (tableFP.getD i 0) 0 = i) ∧
  (∀ x : Block, permute 64 tableFP (permute 64 tableIP x) = x) ∧
  (∀ x : Block, permute 64 tableIP (permute 64 tableFP x) = x)

/-- R60: `rotl28` by positions and as a number; twice one is two; 28 is nothing. -/
def Obligations.RotationIsCyclic : Prop :=
  (∀ (h : KeyHalf) (s : Nat), s < 28 →
    (∀ p < 28, (rotl28 h s).getMsbD p = h.getMsbD ((p + s) % 28)) ∧
    (rotl28 h s).toNat = h.toNat * 2 ^ s % 2 ^ 28 + h.toNat / 2 ^ (28 - s)) ∧
  (∀ h : KeyHalf, rotl28 h 2 = rotl28 (rotl28 h 1) 1) ∧
  (∀ h : KeyHalf, rotl28 h 28 = h) ∧
  rotl28 0xF0CCAAF 1 = 0xE19955F ∧ rotl28 0xF0CCAAF 2 = 0xC332ABF ∧ rotl28 0x8000000 1 = 0x0000001 ∧
  rotl28 0x8000001 2 = 0x0000006

/-- R59: the rounds that rotate by one are 0, 1, 8 and 15, and the running totals are the spec's. -/
def Obligations.RotationCounts : Prop :=
  tableROT = [0, 0, 1, 1, 1, 1, 1, 1, 0, 1, 1, 1, 1, 1, 1, 0] ∧
  (∀ i < 16, shiftAmount i = tableROT.getD i 0 + 1) ∧
  (∀ i < 16, shiftAmount i = if i = 0 ∨ i = 1 ∨ i = 8 ∨ i = 15 then 1 else 2) ∧
  (List.range 16).map totalShift = [1, 2, 4, 6, 8, 10, 12, 14, 15, 17, 19, 21, 23, 25, 27, 28]

/-- R65: after sixteen rounds the halves are back at the permuted key, and sixteen rotations the other way, by the same
amounts in reverse order, lead from them to the permuted key as well. -/
def Obligations.HalvesReturnAfterSixteenRounds : Prop :=
  totalShift 15 = 28 ∧
  (∀ key : Block, keyHalves key 16 = keyHalves key 0) ∧
  (∀ key : Block, (List.range 16).foldl
      (fun cd j => (rotr28 cd.1 (shiftAmount (15 - j)), rotr28 cd.2 (shiftAmount (15 - j)))) (keyHalves key 16)
    = (leftKeyHalf (permutedKey key), rightKeyHalf (permutedKey key)))

/-- R62: the schedule round by round, and its closed form by the total rotations. -/
def Obligations.KeyScheduleIsCumulative : Prop :=
  ∀ key : Block,
    keyHalves key 0 = (leftKeyHalf (permute 56 tablePC1 key), rightKeyHalf (permute 56 tablePC1 key)) ∧
    (∀ i < 16, keyHalves key (i + 1) =
      (rotl28 (keyHalves key i).1 (tableROT.getD i 0 + 1), rotl28 (keyHalves key i).2 (tableROT.getD i 0 + 1))) ∧
    (∀ i : Fin 16, (keySchedule key)[i] =
      permute 48 tablePC2 ((keyHalves key (i.val + 1)).1 ++ (keyHalves key (i.val + 1)).2)) ∧
    (∀ i : Fin 16, (keySchedule key)[i] =
      permute 48 tablePC2
        (rotl28 (keyHalves key 0).1 (totalShift i.val) ++ rotl28 (keyHalves key 0).2 (totalShift i.val)))

/-- R57, R130: keys that differ only in the last bit of their bytes have one permuted key and one schedule. -/
def Obligations.ParityBitsAreIgnored : Prop :=
  ∀ k₁ k₂ : Block, (∀ p < 64, p % 8 ≠ 7 → k₁.getMsbD p = k₂.getMsbD p) →
    permutedKey k₁ = permutedKey k₂ ∧ keySchedule k₁ = keySchedule k₂

/-- R66: the generator that starts from `C_0, D_0` and rotates right yields the round keys in reverse order. -/
def Obligations.ReverseGeneratorReversesTheKeys : Prop :=
  (List.range 16).map rshiftAmount = [0, 1, 2, 2, 2, 2, 2, 2, 1, 2, 2, 2, 2, 2, 2, 1] ∧
  ∀ (key : Block), ∀ j < 16, reverseRoundKey key j = roundKey key (15 - j)

/-- R89, whole: bit `q` of the result is a bit of the S-box entry that the round key and the expanded half select. -/
def Obligations.RoundFunctionByPositions : Prop :=
  ∀ (rh : Half) (k : RoundKey), ∀ q < 32,
    let b : Nat → Nat := fun i => ((rh.getMsbD (tableE.getD i 0)) ^^ (k.getMsbD i)).toNat
    let a : Nat → Nat := fun g =>
      (2 * b (6 * g) + b (6 * g + 5)) * 16 + 8 * b (6 * g + 1) + 4 * b (6 * g + 2) + 2 * b (6 * g + 3) + b (6 * g + 4)
    let p := tableP.getD q 0
    (f rh k).getMsbD q = ((tableSBOX.getD (p / 4) []).getD (a (p / 4)) 0).testBit (3 - p % 4)

/-- R90(a): `f` depends on its arguments only through the sum of the expanded half and the key. -/
def Obligations.RoundFunctionSeesOnlyTheSum : Prop :=
  (∀ (r₁ r₂ : Half) (k₁ k₂ : RoundKey),
    (∀ p < 48, ((permute 48 tableE r₁).getMsbD p ^^ k₁.getMsbD p) = ((permute 48 tableE r₂).getMsbD p ^^ k₂.getMsbD p)) →
    f r₁ k₁ = f r₂ k₂) ∧
  (∀ (r : Half) (k : RoundKey), f (~~~r) (~~~k) = f r k)

/-- R96: the round key of each round, for either direction; as a 4-bit operation `15 - i` is the complement. -/
def Obligations.RoundKeyOrder : Prop :=
  ∀ (ks : Vector RoundKey 16) (i : Fin 16),
    keyOfRound .encrypt ks (BitVec.ofNat 4 i.val) = ks[i] ∧
    keyOfRound .decrypt ks (BitVec.ofNat 4 i.val) = ks[15 - i.val]'(by omega) ∧
    keyIndex .decrypt (BitVec.ofNat 4 i.val) = ~~~(BitVec.ofNat 4 i.val)

/-- R105, of the pure cipher: for any sixteen round keys each direction undoes the other. -/
def Obligations.CipherRoundTrip : Prop :=
  ∀ (ks : Vector RoundKey 16) (x : Block),
    des .decrypt ks (des .encrypt ks x) = x ∧ des .encrypt ks (des .decrypt ks x) = x

/-- V11 (95_test_vectors.md): complementing key and block complements the result. -/
def Obligations.ComplementationProperty : Prop :=
  ∀ (dir : Dir) (key x : Block), des dir (keySchedule (~~~key)) (~~~x) = ~~~(des dir (keySchedule key) x)

/-- R130: where the store reads the same in both orders the two directions are one function; the key
`0x0101010101010101` is such a one. -/
def Obligations.PalindromicSchedules : Prop :=
  (∀ (ks : Vector RoundKey 16) (x : Block), (∀ i : Fin 16, ks[i] = ks[15 - i.val]'(by omega)) →
    des .encrypt ks x = des .decrypt ks x) ∧
  (∀ i : Fin 16, (keySchedule 0x0101010101010101)[i] = 0)

/-! ### Encodings -/

/-- Decoding an encoded instruction gives it back, whatever its operands; and encoding a decoded command word gives the
word back, so that no bit of it is dropped (R38, R39, R46). -/
def Obligations.DecodeAndEncodeAgree : Prop :=
  (∀ i : Instr, decode (encode i) = .ok i) ∧
  (∀ cw : CommandWord, decode (.cw cw) = .ok (decodeCommand cw) ∧ encode (decodeCommand cw) = .cw cw)

/-- Words of spec/95_test_vectors.md V20, and of the table's `SEQ` rows. -/
def Obligations.KnownWordsDecode : Prop :=
  decodeTableWord 72 0x18133457799BBCDFF1 = some (.dks 8 0x133457799BBCDFF1) ∧
  decodeTableWord 72 0x280123456789ABCDEF = some (.enc 8 0x0123456789ABCDEF) ∧
  decodeTableWord 72 0x3F85E813540F0AB405 = some (.dec 15 0x85E813540F0AB405) ∧
  decodeTableWord 72 0x03FFFFFFFFFFFFFFFF = some (.reserved 0x3FFFFFFFFFFFFFFFF) ∧
  decodeTableWord 8 1 = some .ksStep ∧ decodeTableWord 8 2 = some .blkRound ∧ decodeTableWord 8 3 = some .blkFinal

/-- R38 to R41: the fields of a command word as a number, and the byte lanes of `DATA`. -/
def Obligations.CommandWordFields : Prop :=
  ∀ cw : CommandWord,
    cw.toNat = (fieldOp cw).toNat * 2 ^ 68 + (fieldLen cw).toNat * 2 ^ 64 + (fieldData cw).toNat ∧
    (fieldOp cw = 0b00 → ∃ payload, decodeCommand cw = .reserved payload) ∧
    (fieldOp cw = 0b01 → decodeCommand cw = .dks (fieldLen cw) (fieldData cw)) ∧
    (fieldOp cw = 0b10 → decodeCommand cw = .enc (fieldLen cw) (fieldData cw)) ∧
    (fieldOp cw = 0b11 → decodeCommand cw = .dec (fieldLen cw) (fieldData cw)) ∧
    (∀ p < 64, (operandBits (fieldData cw)).getMsbD p = cw.getLsbD (63 - p)) ∧
    (∀ k < 8, ∀ j < 8, (byteLane (fieldData cw) k).getLsbD j = cw.getLsbD (56 - 8 * k + j))

/-- R48: a line of a legal length with the right number of operand bytes, and a `RAW` word of 70 bits, assemble to their
fields; a line of another length, with another number of bytes, or of a wider `RAW` word is refused. -/
def Obligations.AssembledFields : Prop :=
  (∀ (m : Mnemonic) (len : Nat) (operand : List Byte), len ≤ 15 → operand.length = min len 8 →
    ∃ cw, assemble (.command m len operand) = .ok cw ∧ fieldOp cw = opOfMnemonic m ∧ (fieldLen cw).toNat = len ∧
      ∀ k < 8, byteLane (fieldData cw) k = if k < operand.length then operand.getD k 0 else 0) ∧
  (∀ w : Nat, w < 2 ^ 70 → ∃ cw, assemble (.raw w) = .ok cw ∧ cw.toNat = w) ∧
  (∀ (m : Mnemonic) (len : Nat) (operand : List Byte), 15 < len ∨ operand.length ≠ min len 8 →
    assemble (.command m len operand) = .error .illFormed) ∧
  (∀ w : Nat, 2 ^ 70 ≤ w → assemble (.raw w) = .error .illFormed)

/-! ### The step -/

/-- A step runs the decoded instruction: where no reset is asserted and what the machine fetches (an idle engine the command
word presented, a busy one its `PHASE`) decodes to `i`, the step is `exec i` of the state with this step's inputs used
up. Every instruction, well formed or not. -/
def Obligations.StepRunsDecodedInstruction : Prop :=
  ∀ (s : State) (e : Encoded) (i : Instr), s.port.rst = false → s.fetch = some e → decode e = .ok i →
    step s = exec i s.advanceInputs

/-- R44, R45 read by the table's selector column: where (`PHASE`, command word, `KVALID`) selects a micro-operation, the
step performs it. -/
def Obligations.StepRunsSelectedMicroOperation : Prop :=
  ∀ (s : State) (i : Instr), s.port.rst = false → (s.phase = .idle → s.port.cmdValid = true) →
    decode (.seq s.phase.code s.port.cmd s.kvalid) = .ok i → step s = exec i s.advanceInputs

/-- R44: the five outcomes of `Accept`, in the order of its checks. The three faults are the response and nothing else. -/
def Obligations.AcceptHasFiveOutcomes : Prop :=
  ∀ s : State, s.port.rst = false → s.phase = .idle → s.port.cmdValid = true →
    let op := s.port.cmd.extractLsb' 68 2
    let len := s.port.cmd.extractLsb' 64 4
    let data := s.port.cmd.extractLsb' 0 64
    let s' : State := { s with inputs := s.inputs.tail }
    step s =
      if op = 0b00 then .next { s' with rsp := (3 : BitVec 2) ++ (0 : Block), rspValid := true }
      else if len ≠ 8 then .next { s' with rsp := (1 : BitVec 2) ++ (0 : Block), rspValid := true }
      else if op = 0b01 then exec (.ksInit data) s'
      else if s.kvalid = false then .next { s' with rsp := (2 : BitVec 2) ++ (0 : Block), rspValid := true }
      else exec (.blkInit (if op.getLsbD 0 then .decrypt else .encrypt) data) s'

/-- R45: `Tick` performs the micro-operation `PHASE` selects, and a busy engine reaches `IDLE` in exactly the number of
`Tick`s left: 16 from the first `KS_STEP`, 17 from the first `BLK_ROUND`. -/
def Obligations.TickRunsToIdle : Prop :=
  (∀ s : State, s.port.rst = false →
    (s.phase = .ks → step s = exec .ksStep s.advanceInputs) ∧
    (s.phase = .blk → step s = exec .blkRound s.advanceInputs) ∧
    (s.phase = .fin → step s = exec .blkFinal s.advanceInputs)) ∧
  (∀ s : State, s.phase ≠ .idle → noReset (ticksLeft s) s →
    (∃ t, run (ticksLeft s) s = .next t ∧ t.phase = .idle) ∧
    (∀ j < ticksLeft s, ∃ t, run j s = .next t ∧ t.phase ≠ .idle)) ∧
  (∀ s : State, s.rnd = 0 → (s.phase = .ks → ticksLeft s = 16) ∧ (s.phase = .blk → ticksLeft s = 17))

/-- R125: `Reset`, from any state and whatever else the host drives. Nothing is said of the registers it leaves
unspecified. -/
def Obligations.ResetStepRestoresControl : Prop :=
  ∀ s : State, s.port.rst = true →
    ∃ t, step s = .next t ∧ t.phase = .idle ∧ t.kvalid = false ∧ t.rsp = 0 ∧ t.rspValid = false ∧
      t.inputs = s.inputs.tail

/-- R22: the four values the spec gives the state after reset. -/
def Obligations.ResetValues : Prop :=
  State.reset.phase = .idle ∧ State.reset.kvalid = false ∧ State.reset.rsp = 0 ∧ State.reset.rspValid = false

/-- R19: what a busy engine is presented makes no difference; `cmd_ready` and `BUSY` are functions of `PHASE`. The second
clause is the model's reading of R47 and R124 (log 2, DEDUCED): in an idle engine presented nothing the spec has no step,
and the model's answers the same state, `rsp_valid` included, though R10 calls that one step wide. -/
def Obligations.OnlyAnIdleEngineAccepts : Prop :=
  (∀ (s : State) (p q : PortIn), s.phase ≠ .idle → p.rst = q.rst → step (s.withPort p) = step (s.withPort q)) ∧
  (∀ s : State, s.phase = .idle → s.port.rst = false → s.port.cmdValid = false →
    step s = .next { s with inputs := s.inputs.tail }) ∧
  (∀ s : State, cmdReady s = true ↔ s.phase = .idle) ∧ (∀ s : State, busy s = !cmdReady s)

/-- No step of the machine ever stops it: `Reset` (R125), `Accept`, which is total (R44), `Tick` (R45). In an idle engine
presented nothing R47 says that no step is enabled: that `step` answers a next state there too is the model's choice (log 2,
DEDUCED). -/
def Obligations.EveryStepContinues : Prop := ∀ s : State, ∃ t, step s = .next t

/-- `exec` answers a next state exactly in the states where the spec has the step (R44, R45), and stops by name in the
others (log 7, the model's own choice). -/
def Obligations.ExecContinuesExactlyWhenEnabled : Prop :=
  ∀ (i : Instr) (s : State),
    (enabled i s = true → ∃ t, exec i s = .next t) ∧ (enabled i s = false → exec i s = .refused .notEnabled)

/-! ### The micro-operations -/

/-- R68: `KS_INIT`, by positions. -/
def Obligations.KsInitLoadsThePermutedKey : Prop :=
  ∀ (data : Block) (s : State), s.phase = .idle →
    ∃ c d : KeyHalf,
      exec (.ksInit data) s =
        .next { s with c := c, d := d, rnd := 0, kvalid := false, phase := .ks, rspValid := false } ∧
      ∀ p < 28, c.getMsbD p = data.getMsbD (tablePC1.getD p 0) ∧ d.getMsbD p = data.getMsbD (tablePC1.getD (28 + p) 0)

/-- R69: `KS_STEP`, by positions: the rotated halves, the round key made from them, the other fifteen entries as they
were, and the counting. -/
def Obligations.KsStepRotatesAndStores : Prop :=
  ∀ s : State, s.phase = .ks →
    ∃ (c d : KeyHalf) (k : RoundKey),
      exec .ksStep s = .next
        (if s.rnd = 15 then
          { s with c := c, d := d, rk := s.rk.set s.rnd.toNat k, rnd := 0, kvalid := true, phase := .idle,
                   rsp := (0 : BitVec 2) ++ (0 : Block), rspValid := true }
        else
          { s with c := c, d := d, rk := s.rk.set s.rnd.toNat k, rnd := s.rnd + 1, rspValid := false }) ∧
      (∀ p < 28, c.getMsbD p = s.c.getMsbD ((p + (tableROT.getD s.rnd.toNat 0 + 1)) % 28)) ∧
      (∀ p < 28, d.getMsbD p = s.d.getMsbD ((p + (tableROT.getD s.rnd.toNat 0 + 1)) % 28)) ∧
      (∀ p < 48, k.getMsbD p = (c ++ d).getMsbD (tablePC2.getD p 0))

/-- R101: `BLK_INIT`, by positions. -/
def Obligations.BlkInitLoadsThePermutedBlock : Prop :=
  ∀ (dir : Dir) (data : Block) (s : State), s.phase = .idle → s.kvalid = true →
    ∃ l r : Half,
      exec (.blkInit dir data) s =
        .next { s with l := l, r := r, rnd := 0, dir := dir, phase := .blk, rspValid := false } ∧
      ∀ p < 32, l.getMsbD p = data.getMsbD (tableIP.getD p 0) ∧ r.getMsbD p = data.getMsbD (tableIP.getD (32 + p) 0)

/-- R102: `BLK_ROUND`. Both halves come from the old ones; the store is read and not written. -/
def Obligations.BlkRoundIsAFeistelRound : Prop :=
  ∀ s : State, s.phase = .blk →
    ∃ k : RoundKey,
      (∀ j : Fin 16, j.val = (match s.dir with | .encrypt => s.rnd.toNat | .decrypt => 15 - s.rnd.toNat) → k = s.rk[j]) ∧
      exec .blkRound s = .next
        (if s.rnd = 15 then { s with l := s.r, r := s.l ^^^ f s.r k, rnd := 0, phase := .fin, rspValid := false }
        else { s with l := s.r, r := s.l ^^^ f s.r k, rnd := s.rnd + 1, rspValid := false })

/-- R103: `BLK_FINAL`, by positions: `R` first, and `CODE = 0`. -/
def Obligations.BlkFinalRespondsWithTheBlock : Prop :=
  ∀ s : State, s.phase = .fin →
    ∃ rw : ResponseWord,
      exec .blkFinal s = .next { s with rsp := rw, rspValid := true, phase := .idle } ∧
      rw.extractLsb' 64 2 = 0 ∧ ∀ p < 64, rw.getLsbD (63 - p) = (s.r ++ s.l).getMsbD (tableFP.getD p 0)

/-! ### The commands -/

/-- R67: `DKS` as one transaction: the wrong size is a fault and nothing else; the right size ends, sixteen `Tick`s after
its `Accept`, with the schedule of the key stored and valid. `L`, `R`, `DIR` are untouched. Then its corner cases and its
example. -/
def Obligations.DksDerivesTheSchedule : Prop :=
  (∀ (len : BitVec 4) (data : Block) (s : State), s.phase = .idle → noReset 16 s →
    (len ≠ 8 → exec (.dks len data) s = .next { s with rsp := (1 : BitVec 2) ++ (0 : Block), rspValid := true }) ∧
    (len = 8 → ∃ t, exec (.dks len data) s = .next t ∧
      run 16 t = .next { s with
        rk := keySchedule data, kvalid := true, rsp := (0 : BitVec 2) ++ (0 : Block), rspValid := true,
        c := leftKeyHalf (permutedKey data), d := rightKeyHalf (permutedKey data), rnd := 0,
        inputs := s.inputs.drop 16 })) ∧
  (∀ i : Fin 16, (keySchedule 0)[i] = 0 ∧ (keySchedule (BitVec.allOnes 64))[i] = BitVec.allOnes 48 ∧
    (keySchedule 0x0101010101010101)[i] = 0) ∧
  (keySchedule 0x133457799BBCDFF1)[0] = 0x1B02EFFC7072 ∧ (keySchedule 0x133457799BBCDFF1)[15] = 0xCB3D8B0E17F5

/-- R99, R100: `ENC` and `DEC` as one transaction: the two faults in order, and otherwise, seventeen `Tick`s after
`Accept`, the response `OK` with `DES` of the block under the stored schedule. `RK`, `KVALID`, `C`, `D` are untouched. -/
def Obligations.BlockCommandsRespondWithDes : Prop :=
  ∀ (dir : Dir) (len : BitVec 4) (data : Block) (s : State), s.phase = .idle → noReset 17 s →
    (len ≠ 8 →
      exec (blockCommand dir len data) s = .next { s with rsp := (1 : BitVec 2) ++ (0 : Block), rspValid := true }) ∧
    (len = 8 → s.kvalid = false →
      exec (blockCommand dir len data) s = .next { s with rsp := (2 : BitVec 2) ++ (0 : Block), rspValid := true }) ∧
    (len = 8 → s.kvalid = true → ∃ t, exec (blockCommand dir len data) s = .next t ∧
      run 17 t = .next { s with
        rsp := (0 : BitVec 2) ++ des dir s.rk data, rspValid := true,
        l := (blockHalves dir s.rk data 16).1, r := (blockHalves dir s.rk data 16).2, rnd := 0, dir := dir,
        inputs := s.inputs.drop 17 })

/-- The `Accept` step of each command that does not fault is its first micro-operation (R44; 41 R67; 43 R99, R100). -/
def Obligations.AcceptedCommandsStart : Prop :=
  (∀ (data : Block) (s : State), s.phase = .idle →
    exec (.dks 8 data) s = .next { s with
      c := leftKeyHalf (permutedKey data), d := rightKeyHalf (permutedKey data), rnd := 0, kvalid := false, phase := .ks,
      rspValid := false }) ∧
  (∀ (dir : Dir) (data : Block) (s : State), s.phase = .idle → s.kvalid = true →
    exec (blockCommand dir 8 data) s = .next { s with
      l := leftHalf (initialBlock data), r := rightHalf (initialBlock data), rnd := 0, dir := dir, phase := .blk,
      rspValid := false })

/-! ### Faults -/

/-- R110: `InvalidLength`, for short and long operands alike and whatever `DATA` holds. -/
def Obligations.WrongLengthFaults : Prop :=
  ∀ (len : BitVec 4) (data : Block) (s : State), s.phase = .idle → len ≠ 8 →
    ∀ i ∈ [Instr.dks len data, Instr.enc len data, Instr.dec len data],
      exec i s = .next { s with rsp := (0b01 : BitVec 2) ++ (0 : Block), rspValid := true }

/-- R111: `NoSchedule`. -/
def Obligations.BlockCommandWithoutScheduleFaults : Prop :=
  ∀ (data : Block) (s : State), s.phase = .idle → s.kvalid = false →
    ∀ i ∈ [Instr.enc 8 data, Instr.dec 8 data],
      exec i s = .next { s with rsp := (0b10 : BitVec 2) ++ (0 : Block), rspValid := true }

/-- R112: `IllegalCommand`, whatever the 68 other bits are. -/
def Obligations.ReservedCommandFaults : Prop :=
  ∀ (payload : BitVec 68) (s : State), s.phase = .idle →
    exec (.reserved payload) s = .next { s with rsp := (0b11 : BitVec 2) ++ (0 : Block), rspValid := true }

/-- R116: the priority of the faults, and of `rst` over a command presented in the same step. -/
def Obligations.FaultPriority : Prop :=
  (∀ s : State, s.port.rst = false → s.phase = .idle → s.port.cmdValid = true →
    ∃ t, step s = .next t ∧
      (fieldOp s.port.cmd = 0b00 → responseCode t.rsp = 0b11 ∧ t.rspValid = true) ∧
      (fieldOp s.port.cmd ≠ 0b00 → fieldLen s.port.cmd ≠ 8 → responseCode t.rsp = 0b01 ∧ t.rspValid = true) ∧
      ((fieldOp s.port.cmd = 0b10 ∨ fieldOp s.port.cmd = 0b11) → fieldLen s.port.cmd = 8 → s.kvalid = false →
        responseCode t.rsp = 0b10 ∧ t.rspValid = true)) ∧
  (∀ s : State, s.port.rst = true → s.port.cmdValid = true →
    ∃ t, step s = .next t ∧ t.phase = .idle ∧ t.rspValid = false ∧ t.rsp = 0)

/-- R117: raising a fault writes its code and zero data and nothing else; and an instruction that reports a fault is an
`Accept` that has done only that. -/
def Obligations.AFaultLeavesOnlyItsResponse : Prop :=
  (∀ (s : State) (fault : Raised), s.raise fault = { s with
    rsp := (match fault with | .invalidLength => (0b01 : BitVec 2) | .noSchedule => 0b10 | .illegalCommand => 0b11) ++ (0 : Block),
    rspValid := true }) ∧
  (∀ (i : Instr) (s t : State), exec i s = .next t → faultReported t = true →
    s.phase = .idle ∧ ∃ fault, t = s.raise fault)

/-- R118: after a fault the next command does what it would have done without it. -/
def Obligations.FaultsAreNotSticky : Prop :=
  ∀ (i : Instr) (s t : State) (fault : Raised), s.phase = .idle → exec i s = .next t →
    ∃ t', exec i (s.raise fault) = .next t' ∧ { t' with rsp := t.rsp } = t ∧ (t.rspValid = true → t' = t)

/-! ### The whole machine -/

/-- R70: `Accept` of a `DKS` and sixteen `Tick`s, whatever the host drives meanwhile but `rst`. -/
def Obligations.DksRunOfSeventeenSteps : Prop :=
  ∀ (data : Block) (s : State), s.phase = .idle → s.port = PortIn.present (commandWord 0b01 8 data) → noReset 17 s →
    run 17 s = .next { s with
      rk := keySchedule data, kvalid := true, c := leftKeyHalf (permutedKey data), d := rightKeyHalf (permutedKey data),
      rnd := 0, rsp := 0, rspValid := true, inputs := s.inputs.drop 17 } ∧
    ∀ k, 0 < k → k < 17 → ∃ t, run k s = .next t ∧ t.phase = .ks ∧ t.rspValid = false ∧ t.kvalid = false

/-- R104: `Accept` of an `ENC` or `DEC` and seventeen `Tick`s. -/
def Obligations.BlockRunOfEighteenSteps : Prop :=
  ∀ (dir : Dir) (data : Block) (s : State), s.phase = .idle → s.kvalid = true →
    s.port = PortIn.present (commandWord (opOfDir dir) 8 data) → noReset 18 s →
    run 18 s = .next { s with
      l := (blockHalves dir s.rk data 16).1, r := (blockHalves dir s.rk data 16).2, rnd := 0, dir := dir,
      rsp := (0 : BitVec 2) ++ des dir s.rk data, rspValid := true, inputs := s.inputs.drop 18 } ∧
    ∀ k, 0 < k → k < 18 → ∃ t, run k s = .next t ∧ t.phase ≠ .idle ∧ t.rspValid = false

/-- R105: if a block command responds `OK y` to `x`, then, with no `DKS` accepted and no reset in between, the block command
of the other direction responds `OK x` to `y`. -/
def Obligations.EngineRoundTrip : Prop :=
  ∀ (dir : Dir) (x : Block) (s t u v : State) (n : Nat),
    s.phase = .idle → s.kvalid = true → s.port = PortIn.present (commandWord (opOfDir dir) 8 x) → noReset 18 s →
    run 18 s = .next t → run n t = .next u → noRekey n t → u.phase = .idle →
    u.port = PortIn.present (commandWord (opOfDir (otherDir dir)) 8 (responseData t.rsp)) → noReset 18 u →
    run 18 u = .next v →
    responseCode t.rsp = 0 ∧ v.rsp = (0 : BitVec 2) ++ x ∧ v.rspValid = true

/-- The invariant holds after reset. -/
def Obligations.InvariantHoldsAtReset : Prop := Inv State.reset

/-- Every step keeps the invariant: what the sequencing registers promise each other, and that a valid store is the
schedule of some key (R12, R63). -/
def Obligations.EveryStepKeepsTheInvariant : Prop := ∀ s t : State, Inv s → step s = .next t → Inv t

/-- R71: only a reset and `KS_STEP` write the store, only those and an accepted `DKS` write `KVALID`; so a schedule stays as
it is until the next `DKS` is accepted or the engine is reset. -/
def Obligations.AScheduleIsReadOnly : Prop :=
  (∀ s t : State, step s = .next t → s.port.rst = false → s.phase ≠ .ks →
    t.rk = s.rk ∧ (rekeys s = false → t.kvalid = s.kvalid)) ∧
  (∀ (n : Nat) (s t : State), s.phase ≠ .ks → noRekey n s → run n s = .next t →
    t.rk = s.rk ∧ t.kvalid = s.kvalid ∧ t.phase ≠ .ks)

/-- R22, R23, R25: what reset leaves unspecified, and the residue of earlier commands, cannot be seen: two idle engines that
differ in nothing else look the same to the host for ever, whatever it drives. -/
def Obligations.TheHostCannotSeeResidue : Prop :=
  ∀ (n : Nat) (s₁ s₂ : State), SameToHost s₁ s₂ →
    ∃ t₁ t₂, run n s₁ = .next t₁ ∧ run n s₂ = .next t₂ ∧ outputs t₁ = outputs t₂

/-- R23, R25, as a lemma of one step: two engines in the same phase that agree in everything a later step of the command in
progress reads stay so, whatever the host drives, and show the same on the ports meanwhile. Idle engines that differ only
in residue are such. -/
def Obligations.EveryStepKeepsIndistinguishable : Prop :=
  (∀ s₁ s₂ t₁ t₂ : State, Indistinguishable s₁ s₂ → step s₁ = .next t₁ → step s₂ = .next t₂ → Indistinguishable t₁ t₂) ∧
  (∀ s₁ s₂ : State, Indistinguishable s₁ s₂ → outputs s₁ = outputs s₂) ∧
  (∀ s₁ s₂ : State, SameToHost s₁ s₂ → Indistinguishable s₁ s₂)

/-- R106: the response to a block command is a function of the store, the direction and the block. -/
def Obligations.BlockResponsesAreDetermined : Prop :=
  ∀ (dir : Dir) (data : Block) (s₁ s₂ : State),
    s₁.phase = .idle → s₂.phase = .idle → s₁.kvalid = true → s₂.kvalid = true → s₁.rk = s₂.rk →
    s₁.port = PortIn.present (commandWord (opOfDir dir) 8 data) →
    s₂.port = PortIn.present (commandWord (opOfDir dir) 8 data) → noReset 18 s₁ → noReset 18 s₂ →
    ∃ t₁ t₂, run 18 s₁ = .next t₁ ∧ run 18 s₂ = .next t₂ ∧ t₁.rsp = t₂.rsp ∧ t₁.rspValid = true ∧ t₂.rspValid = true

/-- R18, R43: an enabled step that is not `Reset` either responds, and is then the step that completes its command, or sets
`rsp_valid` to 0 and leaves `RSP`. -/
def Obligations.OnlyCompletionsRespond : Prop :=
  ∀ s t : State, step s = .next t → s.port.rst = false → (s.phase = .idle → s.port.cmdValid = true) →
    (t.rspValid = true → t.phase = .idle ∧
      ((s.phase = .idle ∧ responseCode t.rsp ≠ 0) ∨ (s.phase = .ks ∧ s.rnd = 15) ∨ s.phase = .fin)) ∧
    (t.rspValid = false → t.rsp = s.rsp ∧ t.phase ≠ .idle)

/-- 30 R42, 43 R103: of the enabled steps that are no `Reset`, one that responds in `FIN` responds with the result block,
and any other with zero data, whether or not the word differs from the one `RSP` held; and of all steps, only `BLK_FINAL`
changes `RSP` to a word with data. -/
def Obligations.OnlyTheFinalStepRespondsWithData : Prop :=
  (∀ s t : State, step s = .next t → s.port.rst = false → (s.phase = .idle → s.port.cmdValid = true) →
    t.rspValid = true →
    responseData t.rsp = if s.phase = .fin then permute 64 tableFP (s.r ++ s.l) else 0) ∧
  (∀ s t : State, step s = .next t → t.rsp ≠ s.rsp →
    responseData t.rsp = 0 ∨ (s.phase = .fin ∧ responseData t.rsp = permute 64 tableFP (s.r ++ s.l)))

/-- R126: a reset abandons the command in progress: as long as the host then presents nothing, no response is emitted and
`RSP` reads zero, and the schedule is gone: a block command faults with `NoSchedule`. -/
def Obligations.ResetAbandonsTheCommand : Prop :=
  ∀ (s t : State), s.port.rst = true → step s = .next t →
    (∀ n, (∀ p ∈ t.inputs.take n, p.rst = false ∧ p.cmdValid = false) →
      ∃ u, run n t = .next u ∧ u.rspValid = false ∧ u.rsp = 0 ∧ u.kvalid = false ∧ u.phase = .idle) ∧
    (∀ (dir : Dir) (data : Block), t.port = PortIn.present (commandWord (opOfDir dir) 8 data) →
      ∃ u, step t = .next u ∧ u.rsp = (2 : BitVec 2) ++ (0 : Block) ∧ u.rspValid = true)
end

