-- ==== Sys2Proof/Laws/Bits.lean ====
section
/-! SUPPORT. One lemma for each bit primitive: what stands at each position (spec/00_scope.md R5). -/

namespace Sys2Proof.Machine

/-- `permute` position by position (spec/40_bitvector_permutation.md R52), also past the table's end. -/
theorem permute_getMsbD {n m : Nat} (t : List Nat) (x : BitVec n) (ht : t.length = m) (i : Nat) :
    (permute m t x).getMsbD i = if h : i < t.length then x.getMsbD t[i] else false := by
  subst ht
  unfold permute
  rw [BitVec.getMsbD_setWidth]
  have hlen : (t.map x.getMsbD).length = t.length := by simp
  by_cases h : i < t.length
  · have : (t.map x.getMsbD).length ≤ t.length + i := by omega
    simp [hlen, h, BitVec.getMsbD_ofBoolListBE]
  · simp [hlen, h, BitVec.getMsbD_ofBoolListBE]

/-- Operand assembly costs no logic: position `p` of the operand is `DATA[63-p]` (30_encoding.md R41). -/
@[simp] theorem operandBits_eq (data : Block) : operandBits data = data := by
  simp only [operandBits, fromBytes, toBytes, byteLane, Vector.getElem_ofFn]
  apply BitVec.eq_of_getLsbD_eq
  intro i hi
  simp only [BitVec.getLsbD_append, BitVec.getLsbD_extractLsb']
  repeat' split
  all_goals
    rw [decide_eq_true (by omega), Bool.true_and]
    congr 1
    omega

/-! ### The parts of a concatenation -/

theorem append_high {m n : Nat} (a : BitVec m) (b : BitVec n) : (a ++ b).extractLsb' n m = a := by
  apply BitVec.eq_of_getLsbD_eq
  intro i hi
  simp [BitVec.getLsbD_append, hi]

theorem append_low {m n : Nat} (a : BitVec m) (b : BitVec n) : (a ++ b).extractLsb' 0 n = b := by
  apply BitVec.eq_of_getLsbD_eq
  intro i hi
  simp [BitVec.getLsbD_append, hi]

/-! ### The halves of a value, and a value from its halves (20_memory.md R30) -/

@[simp] theorem leftHalf_append (a b : Half) : leftHalf (a ++ b) = a := append_high a b

@[simp] theorem rightHalf_append (a b : Half) : rightHalf (a ++ b) = b := append_low a b

@[simp] theorem leftKeyHalf_append (a b : KeyHalf) : leftKeyHalf (a ++ b) = a := append_high a b

@[simp] theorem rightKeyHalf_append (a b : KeyHalf) : rightKeyHalf (a ++ b) = b := append_low a b

@[simp] theorem leftHalf_rightHalf (x : Block) : leftHalf x ++ rightHalf x = x := by
  apply BitVec.eq_of_getLsbD_eq
  intro i hi
  simp only [leftHalf, rightHalf, BitVec.getLsbD_append, BitVec.getLsbD_extractLsb']
  split
  · simp [*]
  · rw [decide_eq_true (by omega), Bool.true_and]; congr 1; omega

@[simp] theorem leftKeyHalf_rightKeyHalf (x : BitVec 56) : leftKeyHalf x ++ rightKeyHalf x = x := by
  apply BitVec.eq_of_getLsbD_eq
  intro i hi
  simp only [leftKeyHalf, rightKeyHalf, BitVec.getLsbD_append, BitVec.getLsbD_extractLsb']
  split
  · simp [*]
  · rw [decide_eq_true (by omega), Bool.true_and]; congr 1; omega

theorem leftHalf_getMsbD (x : Block) (i : Nat) (h : i < 32) : (leftHalf x).getMsbD i = x.getMsbD i := by
  simp only [leftHalf, BitVec.getMsbD, BitVec.getLsbD_extractLsb']
  simp [h, show i < 64 by omega, show 32 - 1 - i < 32 by omega, show 32 + (31 - i) = 63 - i by omega]

theorem rightHalf_getMsbD (x : Block) (i : Nat) (h : i < 32) : (rightHalf x).getMsbD i = x.getMsbD (32 + i) := by
  simp only [rightHalf, BitVec.getMsbD, BitVec.getLsbD_extractLsb']
  simp [h, show 32 + i < 64 by omega, show 63 - (32 + i) = 31 - i by omega, show 31 - i < 32 by omega]

theorem leftKeyHalf_getMsbD (x : BitVec 56) (i : Nat) (h : i < 28) : (leftKeyHalf x).getMsbD i = x.getMsbD i := by
  simp only [leftKeyHalf, BitVec.getMsbD, BitVec.getLsbD_extractLsb']
  simp [h, show i < 56 by omega, show 28 - 1 - i < 28 by omega, show 28 + (27 - i) = 55 - i by omega]

theorem rightKeyHalf_getMsbD (x : BitVec 56) (i : Nat) (h : i < 28) :
    (rightKeyHalf x).getMsbD i = x.getMsbD (28 + i) := by
  simp only [rightKeyHalf, BitVec.getMsbD, BitVec.getLsbD_extractLsb']
  simp [h, show 28 + i < 56 by omega, show 55 - (28 + i) = 27 - i by omega, show 27 - i < 28 by omega]

/-! ### The parts of a response word (30_encoding.md R42) -/

@[simp] theorem responseCode_word (code : Code) (data : Block) :
    responseCode (responseWord code data) = codeBits code :=
  append_high (codeBits code) data

@[simp] theorem responseData_word (code : Code) (data : Block) : responseData (responseWord code data) = data :=
  append_low (codeBits code) data

end Sys2Proof.Machine
end

