-- ==== Sys2Proof/Laws/State.lean ====
section
/-! SUPPORT. One lemma for each field under each update of the state: what the update puts there, or that it leaves it. -/

namespace Sys2Proof.Machine

variable (s : State)

/-! ### `State.respond` -/

@[simp] theorem State.respond_rk (code : Code) (data : Block) : (s.respond code data).rk = s.rk := rfl
@[simp] theorem State.respond_kvalid (code : Code) (data : Block) : (s.respond code data).kvalid = s.kvalid := rfl
@[simp] theorem State.respond_c (code : Code) (data : Block) : (s.respond code data).c = s.c := rfl
@[simp] theorem State.respond_d (code : Code) (data : Block) : (s.respond code data).d = s.d := rfl
@[simp] theorem State.respond_l (code : Code) (data : Block) : (s.respond code data).l = s.l := rfl
@[simp] theorem State.respond_r (code : Code) (data : Block) : (s.respond code data).r = s.r := rfl
@[simp] theorem State.respond_rnd (code : Code) (data : Block) : (s.respond code data).rnd = s.rnd := rfl
@[simp] theorem State.respond_dir (code : Code) (data : Block) : (s.respond code data).dir = s.dir := rfl
@[simp] theorem State.respond_phase (code : Code) (data : Block) : (s.respond code data).phase = s.phase := rfl
@[simp] theorem State.respond_rsp (code : Code) (data : Block) :
    (s.respond code data).rsp = responseWord code data := rfl
@[simp] theorem State.respond_rspValid (code : Code) (data : Block) : (s.respond code data).rspValid = true := rfl
@[simp] theorem State.respond_inputs (code : Code) (data : Block) : (s.respond code data).inputs = s.inputs := rfl
@[simp] theorem State.respond_draws (code : Code) (data : Block) : (s.respond code data).draws = s.draws := rfl

/-! ### `State.noResponse` -/

@[simp] theorem State.noResponse_rk : s.noResponse.rk = s.rk := rfl
@[simp] theorem State.noResponse_kvalid : s.noResponse.kvalid = s.kvalid := rfl
@[simp] theorem State.noResponse_c : s.noResponse.c = s.c := rfl
@[simp] theorem State.noResponse_d : s.noResponse.d = s.d := rfl
@[simp] theorem State.noResponse_l : s.noResponse.l = s.l := rfl
@[simp] theorem State.noResponse_r : s.noResponse.r = s.r := rfl
@[simp] theorem State.noResponse_rnd : s.noResponse.rnd = s.rnd := rfl
@[simp] theorem State.noResponse_dir : s.noResponse.dir = s.dir := rfl
@[simp] theorem State.noResponse_phase : s.noResponse.phase = s.phase := rfl
@[simp] theorem State.noResponse_rsp : s.noResponse.rsp = s.rsp := rfl
@[simp] theorem State.noResponse_rspValid : s.noResponse.rspValid = false := rfl
@[simp] theorem State.noResponse_inputs : s.noResponse.inputs = s.inputs := rfl
@[simp] theorem State.noResponse_draws : s.noResponse.draws = s.draws := rfl

/-! ### `State.raise` -/

@[simp] theorem State.raise_rk (fault : Raised) : (s.raise fault).rk = s.rk := rfl
@[simp] theorem State.raise_kvalid (fault : Raised) : (s.raise fault).kvalid = s.kvalid := rfl
@[simp] theorem State.raise_c (fault : Raised) : (s.raise fault).c = s.c := rfl
@[simp] theorem State.raise_d (fault : Raised) : (s.raise fault).d = s.d := rfl
@[simp] theorem State.raise_l (fault : Raised) : (s.raise fault).l = s.l := rfl
@[simp] theorem State.raise_r (fault : Raised) : (s.raise fault).r = s.r := rfl
@[simp] theorem State.raise_rnd (fault : Raised) : (s.raise fault).rnd = s.rnd := rfl
@[simp] theorem State.raise_dir (fault : Raised) : (s.raise fault).dir = s.dir := rfl
@[simp] theorem State.raise_phase (fault : Raised) : (s.raise fault).phase = s.phase := rfl
@[simp] theorem State.raise_rsp (fault : Raised) : (s.raise fault).rsp = responseWord (faultCode fault) 0 := rfl
@[simp] theorem State.raise_rspValid (fault : Raised) : (s.raise fault).rspValid = true := rfl
@[simp] theorem State.raise_inputs (fault : Raised) : (s.raise fault).inputs = s.inputs := rfl
@[simp] theorem State.raise_draws (fault : Raised) : (s.raise fault).draws = s.draws := rfl

/-! ### `State.writeRK` -/

@[simp] theorem State.writeRK_rk (i : BitVec 4) (v : RoundKey) : (s.writeRK i v).rk = s.rk.set i.toNat v := rfl
@[simp] theorem State.writeRK_kvalid (i : BitVec 4) (v : RoundKey) : (s.writeRK i v).kvalid = s.kvalid := rfl
@[simp] theorem State.writeRK_c (i : BitVec 4) (v : RoundKey) : (s.writeRK i v).c = s.c := rfl
@[simp] theorem State.writeRK_d (i : BitVec 4) (v : RoundKey) : (s.writeRK i v).d = s.d := rfl
@[simp] theorem State.writeRK_l (i : BitVec 4) (v : RoundKey) : (s.writeRK i v).l = s.l := rfl
@[simp] theorem State.writeRK_r (i : BitVec 4) (v : RoundKey) : (s.writeRK i v).r = s.r := rfl
@[simp] theorem State.writeRK_rnd (i : BitVec 4) (v : RoundKey) : (s.writeRK i v).rnd = s.rnd := rfl
@[simp] theorem State.writeRK_dir (i : BitVec 4) (v : RoundKey) : (s.writeRK i v).dir = s.dir := rfl
@[simp] theorem State.writeRK_phase (i : BitVec 4) (v : RoundKey) : (s.writeRK i v).phase = s.phase := rfl
@[simp] theorem State.writeRK_rsp (i : BitVec 4) (v : RoundKey) : (s.writeRK i v).rsp = s.rsp := rfl
@[simp] theorem State.writeRK_rspValid (i : BitVec 4) (v : RoundKey) : (s.writeRK i v).rspValid = s.rspValid := rfl
@[simp] theorem State.writeRK_inputs (i : BitVec 4) (v : RoundKey) : (s.writeRK i v).inputs = s.inputs := rfl
@[simp] theorem State.writeRK_draws (i : BitVec 4) (v : RoundKey) : (s.writeRK i v).draws = s.draws := rfl

/-! ### `State.advanceInputs` -/

@[simp] theorem State.advanceInputs_rk : s.advanceInputs.rk = s.rk := rfl
@[simp] theorem State.advanceInputs_kvalid : s.advanceInputs.kvalid = s.kvalid := rfl
@[simp] theorem State.advanceInputs_c : s.advanceInputs.c = s.c := rfl
@[simp] theorem State.advanceInputs_d : s.advanceInputs.d = s.d := rfl
@[simp] theorem State.advanceInputs_l : s.advanceInputs.l = s.l := rfl
@[simp] theorem State.advanceInputs_r : s.advanceInputs.r = s.r := rfl
@[simp] theorem State.advanceInputs_rnd : s.advanceInputs.rnd = s.rnd := rfl
@[simp] theorem State.advanceInputs_dir : s.advanceInputs.dir = s.dir := rfl
@[simp] theorem State.advanceInputs_phase : s.advanceInputs.phase = s.phase := rfl
@[simp] theorem State.advanceInputs_rsp : s.advanceInputs.rsp = s.rsp := rfl
@[simp] theorem State.advanceInputs_rspValid : s.advanceInputs.rspValid = s.rspValid := rfl
@[simp] theorem State.advanceInputs_inputs : s.advanceInputs.inputs = s.inputs.tail := rfl
@[simp] theorem State.advanceInputs_draws : s.advanceInputs.draws = s.draws := rfl

/-! ### `State.withPort` -/

@[simp] theorem State.withPort_rk (p : PortIn) : (s.withPort p).rk = s.rk := rfl
@[simp] theorem State.withPort_kvalid (p : PortIn) : (s.withPort p).kvalid = s.kvalid := rfl
@[simp] theorem State.withPort_c (p : PortIn) : (s.withPort p).c = s.c := rfl
@[simp] theorem State.withPort_d (p : PortIn) : (s.withPort p).d = s.d := rfl
@[simp] theorem State.withPort_l (p : PortIn) : (s.withPort p).l = s.l := rfl
@[simp] theorem State.withPort_r (p : PortIn) : (s.withPort p).r = s.r := rfl
@[simp] theorem State.withPort_rnd (p : PortIn) : (s.withPort p).rnd = s.rnd := rfl
@[simp] theorem State.withPort_dir (p : PortIn) : (s.withPort p).dir = s.dir := rfl
@[simp] theorem State.withPort_phase (p : PortIn) : (s.withPort p).phase = s.phase := rfl
@[simp] theorem State.withPort_rsp (p : PortIn) : (s.withPort p).rsp = s.rsp := rfl
@[simp] theorem State.withPort_rspValid (p : PortIn) : (s.withPort p).rspValid = s.rspValid := rfl
@[simp] theorem State.withPort_inputs (p : PortIn) : (s.withPort p).inputs = p :: s.inputs.tail := rfl
@[simp] theorem State.withPort_draws (p : PortIn) : (s.withPort p).draws = s.draws := rfl

/-! ### `State.resetStep` -/

@[simp] theorem State.resetStep_rk : s.resetStep.rk = Vector.ofFn fun i => Config.resetRK s.draws i.val := rfl
@[simp] theorem State.resetStep_kvalid : s.resetStep.kvalid = false := rfl
@[simp] theorem State.resetStep_c : s.resetStep.c = Config.resetC s.draws := rfl
@[simp] theorem State.resetStep_d : s.resetStep.d = Config.resetD s.draws := rfl
@[simp] theorem State.resetStep_l : s.resetStep.l = Config.resetL s.draws := rfl
@[simp] theorem State.resetStep_r : s.resetStep.r = Config.resetR s.draws := rfl
@[simp] theorem State.resetStep_rnd : s.resetStep.rnd = Config.resetRnd s.draws := rfl
@[simp] theorem State.resetStep_dir : s.resetStep.dir = dirOfBit (Config.resetDir s.draws) := rfl
@[simp] theorem State.resetStep_phase : s.resetStep.phase = .idle := rfl
@[simp] theorem State.resetStep_rsp : s.resetStep.rsp = 0 := rfl
@[simp] theorem State.resetStep_rspValid : s.resetStep.rspValid = false := rfl
@[simp] theorem State.resetStep_inputs : s.resetStep.inputs = s.inputs := rfl
@[simp] theorem State.resetStep_draws : s.resetStep.draws = s.draws + 1 := rfl

/-! ### `ksInit` -/

@[simp] theorem ksInit_rk (data : Block) : (ksInit data s).rk = s.rk := rfl
@[simp] theorem ksInit_kvalid (data : Block) : (ksInit data s).kvalid = false := rfl
@[simp] theorem ksInit_c (data : Block) : (ksInit data s).c = leftKeyHalf (permutedKey data) := rfl
@[simp] theorem ksInit_d (data : Block) : (ksInit data s).d = rightKeyHalf (permutedKey data) := rfl
@[simp] theorem ksInit_l (data : Block) : (ksInit data s).l = s.l := rfl
@[simp] theorem ksInit_r (data : Block) : (ksInit data s).r = s.r := rfl
@[simp] theorem ksInit_rnd (data : Block) : (ksInit data s).rnd = 0 := rfl
@[simp] theorem ksInit_dir (data : Block) : (ksInit data s).dir = s.dir := rfl
@[simp] theorem ksInit_phase (data : Block) : (ksInit data s).phase = .ks := rfl
@[simp] theorem ksInit_rsp (data : Block) : (ksInit data s).rsp = s.rsp := rfl
@[simp] theorem ksInit_rspValid (data : Block) : (ksInit data s).rspValid = false := rfl
@[simp] theorem ksInit_inputs (data : Block) : (ksInit data s).inputs = s.inputs := rfl
@[simp] theorem ksInit_draws (data : Block) : (ksInit data s).draws = s.draws := rfl

/-! ### `rotateAndStore` -/

@[simp] theorem rotateAndStore_rk : (rotateAndStore s).rk = s.rk.set s.rnd.toNat
      (compress (rotl28 s.c (shiftAmount (roundNumber s.rnd))) (rotl28 s.d (shiftAmount (roundNumber s.rnd)))) := rfl
@[simp] theorem rotateAndStore_kvalid : (rotateAndStore s).kvalid = s.kvalid := rfl
@[simp] theorem rotateAndStore_c : (rotateAndStore s).c = rotl28 s.c (shiftAmount (roundNumber s.rnd)) := rfl
@[simp] theorem rotateAndStore_d : (rotateAndStore s).d = rotl28 s.d (shiftAmount (roundNumber s.rnd)) := rfl
@[simp] theorem rotateAndStore_l : (rotateAndStore s).l = s.l := rfl
@[simp] theorem rotateAndStore_r : (rotateAndStore s).r = s.r := rfl
@[simp] theorem rotateAndStore_rnd : (rotateAndStore s).rnd = s.rnd := rfl
@[simp] theorem rotateAndStore_dir : (rotateAndStore s).dir = s.dir := rfl
@[simp] theorem rotateAndStore_phase : (rotateAndStore s).phase = s.phase := rfl
@[simp] theorem rotateAndStore_rsp : (rotateAndStore s).rsp = s.rsp := rfl
@[simp] theorem rotateAndStore_rspValid : (rotateAndStore s).rspValid = s.rspValid := rfl
@[simp] theorem rotateAndStore_inputs : (rotateAndStore s).inputs = s.inputs := rfl
@[simp] theorem rotateAndStore_draws : (rotateAndStore s).draws = s.draws := rfl

/-! ### `blkInit` -/

@[simp] theorem blkInit_rk (dir : Dir) (data : Block) : (blkInit dir data s).rk = s.rk := rfl
@[simp] theorem blkInit_kvalid (dir : Dir) (data : Block) : (blkInit dir data s).kvalid = s.kvalid := rfl
@[simp] theorem blkInit_c (dir : Dir) (data : Block) : (blkInit dir data s).c = s.c := rfl
@[simp] theorem blkInit_d (dir : Dir) (data : Block) : (blkInit dir data s).d = s.d := rfl
@[simp] theorem blkInit_l (dir : Dir) (data : Block) : (blkInit dir data s).l = leftHalf (initialBlock data) := rfl
@[simp] theorem blkInit_r (dir : Dir) (data : Block) : (blkInit dir data s).r = rightHalf (initialBlock data) := rfl
@[simp] theorem blkInit_rnd (dir : Dir) (data : Block) : (blkInit dir data s).rnd = 0 := rfl
@[simp] theorem blkInit_dir (dir : Dir) (data : Block) : (blkInit dir data s).dir = dir := rfl
@[simp] theorem blkInit_phase (dir : Dir) (data : Block) : (blkInit dir data s).phase = .blk := rfl
@[simp] theorem blkInit_rsp (dir : Dir) (data : Block) : (blkInit dir data s).rsp = s.rsp := rfl
@[simp] theorem blkInit_rspValid (dir : Dir) (data : Block) : (blkInit dir data s).rspValid = false := rfl
@[simp] theorem blkInit_inputs (dir : Dir) (data : Block) : (blkInit dir data s).inputs = s.inputs := rfl
@[simp] theorem blkInit_draws (dir : Dir) (data : Block) : (blkInit dir data s).draws = s.draws := rfl

/-! ### `blkFinal` -/

@[simp] theorem blkFinal_rk : (blkFinal s).rk = s.rk := rfl
@[simp] theorem blkFinal_kvalid : (blkFinal s).kvalid = s.kvalid := rfl
@[simp] theorem blkFinal_c : (blkFinal s).c = s.c := rfl
@[simp] theorem blkFinal_d : (blkFinal s).d = s.d := rfl
@[simp] theorem blkFinal_l : (blkFinal s).l = s.l := rfl
@[simp] theorem blkFinal_r : (blkFinal s).r = s.r := rfl
@[simp] theorem blkFinal_rnd : (blkFinal s).rnd = s.rnd := rfl
@[simp] theorem blkFinal_dir : (blkFinal s).dir = s.dir := rfl
@[simp] theorem blkFinal_phase : (blkFinal s).phase = .idle := rfl
@[simp] theorem blkFinal_rsp : (blkFinal s).rsp = responseWord .ok (finalBlock s.l s.r) := rfl
@[simp] theorem blkFinal_rspValid : (blkFinal s).rspValid = true := rfl
@[simp] theorem blkFinal_inputs : (blkFinal s).inputs = s.inputs := rfl
@[simp] theorem blkFinal_draws : (blkFinal s).draws = s.draws := rfl

/-! ### `ksStep` and `blkRound`: what both their branches leave -/

@[simp] theorem ksStep_l : (ksStep s).l = s.l := by unfold ksStep; split <;> rfl
@[simp] theorem ksStep_r : (ksStep s).r = s.r := by unfold ksStep; split <;> rfl
@[simp] theorem ksStep_dir : (ksStep s).dir = s.dir := by unfold ksStep; split <;> rfl
@[simp] theorem ksStep_inputs : (ksStep s).inputs = s.inputs := by unfold ksStep; split <;> rfl
@[simp] theorem ksStep_draws : (ksStep s).draws = s.draws := by unfold ksStep; split <;> rfl
@[simp] theorem ksStep_c : (ksStep s).c = (rotateAndStore s).c := by unfold ksStep; split <;> rfl
@[simp] theorem ksStep_d : (ksStep s).d = (rotateAndStore s).d := by unfold ksStep; split <;> rfl
@[simp] theorem ksStep_rk : (ksStep s).rk = (rotateAndStore s).rk := by unfold ksStep; split <;> rfl
@[simp] theorem blkRound_rk : (blkRound s).rk = s.rk := by unfold blkRound; dsimp only; split <;> rfl
@[simp] theorem blkRound_kvalid : (blkRound s).kvalid = s.kvalid := by unfold blkRound; dsimp only; split <;> rfl
@[simp] theorem blkRound_c : (blkRound s).c = s.c := by unfold blkRound; dsimp only; split <;> rfl
@[simp] theorem blkRound_d : (blkRound s).d = s.d := by unfold blkRound; dsimp only; split <;> rfl
@[simp] theorem blkRound_l : (blkRound s).l = s.r := by unfold blkRound; dsimp only; split <;> rfl
@[simp] theorem blkRound_r : (blkRound s).r = xorBits s.l (f s.r (s.readRK (keyIndex s.dir s.rnd))) := by
  unfold blkRound; dsimp only; split <;> rfl
@[simp] theorem blkRound_dir : (blkRound s).dir = s.dir := by unfold blkRound; dsimp only; split <;> rfl
@[simp] theorem blkRound_rsp : (blkRound s).rsp = s.rsp := by unfold blkRound; dsimp only; split <;> rfl
@[simp] theorem blkRound_rspValid : (blkRound s).rspValid = false := by unfold blkRound; dsimp only; split <;> rfl
@[simp] theorem blkRound_inputs : (blkRound s).inputs = s.inputs := by unfold blkRound; dsimp only; split <;> rfl
@[simp] theorem blkRound_draws : (blkRound s).draws = s.draws := by unfold blkRound; dsimp only; split <;> rfl

/-! ### The fields that depend on the round -/

theorem ksStep_last (h : s.rnd = 15) :
    ksStep s = { s with
      rk := (rotateAndStore s).rk, c := (rotateAndStore s).c, d := (rotateAndStore s).d, rnd := 0, kvalid := true,
      phase := .idle, rsp := responseWord .ok 0, rspValid := true } := by
  unfold ksStep; rw [if_pos h]; rfl

theorem ksStep_inner (h : s.rnd ≠ 15) :
    ksStep s = { s with
      rk := (rotateAndStore s).rk, c := (rotateAndStore s).c, d := (rotateAndStore s).d, rnd := s.rnd + 1,
      rspValid := false } := by
  unfold ksStep; rw [if_neg h]; rfl

theorem blkRound_last (h : s.rnd = 15) :
    blkRound s = { s with l := s.r, r := xorBits s.l (f s.r (s.readRK (keyIndex s.dir s.rnd))), rnd := 0, phase := .fin, rspValid := false } := by
  unfold blkRound; dsimp only; rw [if_pos h]; rfl

theorem blkRound_inner (h : s.rnd ≠ 15) :
    blkRound s = { s with l := s.r, r := xorBits s.l (f s.r (s.readRK (keyIndex s.dir s.rnd))), rnd := s.rnd + 1, rspValid := false } := by
  unfold blkRound; dsimp only; rw [if_neg h]; rfl

end Sys2Proof.Machine
end

