-- ==== Sys2Proof/Laws/Ops.lean ====
section
/-! SUPPORT. One lemma for each shared operation: everything it can do. -/

namespace Sys2Proof.Machine

/-- The guard answers a next state exactly when it is met, and then the one given. -/
theorem whenEnabled_next {enabled : Bool} {next t : State} (h : whenEnabled enabled next = .next t) :
    enabled = true ∧ t = next := by
  cases enabled with
  | true => exact ⟨rfl, (Host.Outcome.next.inj h).symm⟩
  | false => exact nomatch h

theorem whenEnabled_true (next : State) : whenEnabled true next = .next next := rfl

theorem whenEnabled_false (next : State) : whenEnabled false next = .refused .notEnabled := rfl

/-- A round-key entry reads as what was written to it, and every other entry as before (20_memory.md R27). -/
theorem readRK_writeRK (s : State) (i j : BitVec 4) (v : RoundKey) :
    (s.writeRK i v).readRK j = if i = j then v else s.readRK j := by
  simp only [State.readRK, State.writeRK, Vector.getElem_set]
  by_cases h : i = j
  · simp [h]
  · rw [if_neg fun e => h (BitVec.eq_of_toNat_eq e), if_neg h]

/-- Taking a fault writes the response and nothing else (60_exceptions.md R117). -/
theorem raise_eq (s : State) (fault : Raised) :
    s.raise fault = { s with rsp := responseWord (faultCode fault) 0, rspValid := true } := rfl

/-- The one legal size (30_encoding.md R40). -/
theorem operandSized_iff (len : BitVec 4) : operandSized len = true ↔ len = 8 := by simp [operandSized, legalLen]

/-- What `Accept` does with a `DKS`, by its operand's size. -/
theorem acceptDks_cases (len : BitVec 4) (data : Block) (s : State) :
    (len = 8 ∧ acceptDks len data s = ksInit data s) ∨
    (len ≠ 8 ∧ acceptDks len data s = s.raise .invalidLength) := by
  unfold acceptDks
  by_cases h : len = 8
  · exact .inl ⟨h, if_pos ((operandSized_iff len).2 h)⟩
  · exact .inr ⟨h, if_neg (mt (operandSized_iff len).1 h)⟩

/-- What `Accept` does with a block command, by its operand's size and the schedule. -/
theorem acceptBlock_cases (dir : Dir) (len : BitVec 4) (data : Block) (s : State) :
    (len = 8 ∧ s.kvalid = true ∧ acceptBlock dir len data s = blkInit dir data s) ∨
    (len = 8 ∧ s.kvalid = false ∧ acceptBlock dir len data s = s.raise .noSchedule) ∨
    (len ≠ 8 ∧ acceptBlock dir len data s = s.raise .invalidLength) := by
  unfold acceptBlock
  by_cases h : len = 8
  · rw [if_pos ((operandSized_iff len).2 h)]
    cases hk : s.kvalid with
    | true => exact .inl ⟨h, rfl, rfl⟩
    | false => exact .inr (.inl ⟨h, rfl, rfl⟩)
  · exact .inr (.inr ⟨h, if_neg (mt (operandSized_iff len).1 h)⟩)

/-- The two branches of `KS_STEP` (41_key_schedule.md R69). -/
theorem ksStep_cases (s : State) :
    (s.rnd = 15 ∧ ksStep s = { s with
      rk := (rotateAndStore s).rk, c := (rotateAndStore s).c, d := (rotateAndStore s).d, rnd := 0, kvalid := true,
      phase := .idle, rsp := responseWord .ok 0, rspValid := true }) ∨
    (s.rnd ≠ 15 ∧ ksStep s = { s with
      rk := (rotateAndStore s).rk, c := (rotateAndStore s).c, d := (rotateAndStore s).d, rnd := s.rnd + 1,
      rspValid := false }) := by
  by_cases h : s.rnd = 15
  · exact .inl ⟨h, ksStep_last s h⟩
  · exact .inr ⟨h, ksStep_inner s h⟩

/-- Counting a round that is not the last. -/
theorem rnd_succ {rnd : BitVec 4} (h : rnd ≠ 15) : (rnd + 1).toNat = rnd.toNat + 1 := by
  have : rnd.toNat ≠ 15 := fun e => h (BitVec.eq_of_toNat_eq e)
  have := rnd.isLt
  simp [BitVec.toNat_add]
  omega

end Sys2Proof.Machine
end

