-- ==== Sys2Proof/Laws/PerInstr.lean ====
section
/-! SUPPORT. Statements made of every instruction, one lemma a constructor. -/

namespace Sys2Proof.Laws

/-- The middle of three fields. -/
theorem append_middle {m n k : Nat} (a : BitVec m) (b : BitVec n) (c : BitVec k) :
    (a ++ b ++ c).extractLsb' k n = b := by
  apply BitVec.eq_of_getLsbD_eq
  intro i hi
  simp [BitVec.getLsbD_append, hi]

/-- The first of three fields. -/
theorem append_first {m n k : Nat} (a : BitVec m) (b : BitVec n) (c : BitVec k) :
    (a ++ b ++ c).extractLsb' (n + k) m = a := by
  apply BitVec.eq_of_getLsbD_eq
  intro i hi
  simp [BitVec.getLsbD_append, hi, show ¬(n + k + i < k) by omega, show ¬(n + k + i - k < n) by omega,
    show n + k + i - k - n = i by omega]

theorem fieldOp_commandWord (op : BitVec 2) (len : BitVec 4) (data : Block) : fieldOp (commandWord op len data) = op :=
  append_first op len data

theorem fieldLen_commandWord (op : BitVec 2) (len : BitVec 4) (data : Block) :
    fieldLen (commandWord op len data) = len := append_middle op len data

theorem fieldData_commandWord (op : BitVec 2) (len : BitVec 4) (data : Block) :
    fieldData (commandWord op len data) = data := Sys2Proof.Machine.append_low (op ++ len) data

/-- A reserved word's `OP` and its 68 other bits. -/
theorem reserved_fields (payload : BitVec 68) :
    fieldOp ((0b00 : BitVec 2) ++ payload) = 0b00 ∧ fieldPayload ((0b00 : BitVec 2) ++ payload) = payload :=
  ⟨Sys2Proof.Machine.append_high (0b00 : BitVec 2) payload, Sys2Proof.Machine.append_low (0b00 : BitVec 2) payload⟩

namespace RoundTrip

/-- Decoding the encoded instruction gives it back, with every operand at every value. -/
def Statement (i : Instr) : Prop := decode (encode i) = .ok i

theorem dks (len : BitVec 4) (data : Block) : Statement (.dks len data) := by
  simp [Statement, encode, decode, decodeCommand, fieldOp_commandWord, fieldLen_commandWord, fieldData_commandWord]

theorem enc (len : BitVec 4) (data : Block) : Statement (.enc len data) := by
  simp [Statement, encode, decode, decodeCommand, fieldOp_commandWord, fieldLen_commandWord, fieldData_commandWord]

theorem dec (len : BitVec 4) (data : Block) : Statement (.dec len data) := by
  simp [Statement, encode, decode, decodeCommand, fieldOp_commandWord, fieldLen_commandWord, fieldData_commandWord]

theorem reserved (payload : BitVec 68) : Statement (.reserved payload) := by
  simp only [Statement, encode, decode, decodeCommand, reserved_fields payload, if_true]

theorem ksInit (data : Block) : Statement (.ksInit data) := by
  simp [Statement, encode, decode, decodeAccept, decodeCommand, fieldOp_commandWord, fieldLen_commandWord,
    fieldData_commandWord, lenLegal]

theorem ksStep : Statement .ksStep := rfl

theorem blkInit (dir : Dir) (data : Block) : Statement (.blkInit dir data) := by
  cases dir <;>
    simp [Statement, encode, decode, decodeAccept, decodeCommand, opOfDir, fieldOp_commandWord, fieldLen_commandWord,
      fieldData_commandWord, lenLegal]

theorem blkRound : Statement .blkRound := rfl

theorem blkFinal : Statement .blkFinal := rfl

end RoundTrip

end Sys2Proof.Laws
end

