-- ==== Sys2Proof/Laws/Exec.lean ====
section
/-! SUPPORT. One lemma for each instruction: what `exec` answers in the states where the step exists; and what a command
word decodes to, by its `OP`. -/

namespace Sys2Proof.Machine

theorem exec_dks {s : State} (h : s.phase = .idle) (len : BitVec 4) (data : Block) :
    exec (.dks len data) s = .next (acceptDks len data s) := by
  show whenEnabled (s.phase == .idle) _ = _
  rw [h]; rfl

theorem exec_enc {s : State} (h : s.phase = .idle) (len : BitVec 4) (data : Block) :
    exec (.enc len data) s = .next (acceptBlock .encrypt len data s) := by
  show whenEnabled (s.phase == .idle) _ = _
  rw [h]; rfl

theorem exec_dec {s : State} (h : s.phase = .idle) (len : BitVec 4) (data : Block) :
    exec (.dec len data) s = .next (acceptBlock .decrypt len data s) := by
  show whenEnabled (s.phase == .idle) _ = _
  rw [h]; rfl

theorem exec_reserved {s : State} (h : s.phase = .idle) (payload : BitVec 68) :
    exec (.reserved payload) s = .next (s.raise .illegalCommand) := by
  show whenEnabled (s.phase == .idle) _ = _
  rw [h]; rfl

theorem exec_ksInit {s : State} (h : s.phase = .idle) (data : Block) :
    exec (.ksInit data) s = .next (ksInit data s) := by
  show whenEnabled (s.phase == .idle) _ = _
  rw [h]; rfl

theorem exec_ksStep {s : State} (h : s.phase = .ks) : exec .ksStep s = .next (ksStep s) := by
  show whenEnabled (s.phase == .ks) _ = _
  rw [h]; rfl

theorem exec_blkInit {s : State} (h : s.phase = .idle) (hk : s.kvalid = true) (dir : Dir) (data : Block) :
    exec (.blkInit dir data) s = .next (blkInit dir data s) := by
  show whenEnabled (s.phase == .idle && s.kvalid) _ = _
  rw [h, hk]; rfl

theorem exec_blkRound {s : State} (h : s.phase = .blk) : exec .blkRound s = .next (blkRound s) := by
  show whenEnabled (s.phase == .blk) _ = _
  rw [h]; rfl

theorem exec_blkFinal {s : State} (h : s.phase = .fin) : exec .blkFinal s = .next (blkFinal s) := by
  show whenEnabled (s.phase == .fin) _ = _
  rw [h]; rfl

/-- The four values of `OP` (30_encoding.md R39). -/
theorem op_cases (op : BitVec 2) : op = 0b00 ∨ op = 0b01 ∨ op = 0b10 ∨ op = 0b11 := by
  revert op; decide

theorem decodeCommand_reserved {cw : CommandWord} (h : fieldOp cw = 0b00) :
    decodeCommand cw = .reserved (fieldPayload cw) := by
  unfold decodeCommand; rw [if_pos h]

theorem decodeCommand_dks {cw : CommandWord} (h : fieldOp cw = 0b01) :
    decodeCommand cw = .dks (fieldLen cw) (fieldData cw) := by
  unfold decodeCommand; rw [if_neg (by rw [h]; decide), if_pos h]

theorem decodeCommand_enc {cw : CommandWord} (h : fieldOp cw = 0b10) :
    decodeCommand cw = .enc (fieldLen cw) (fieldData cw) := by
  unfold decodeCommand; rw [if_neg (by rw [h]; decide), if_neg (by rw [h]; decide), if_pos h]

theorem decodeCommand_dec {cw : CommandWord} (h : fieldOp cw = 0b11) :
    decodeCommand cw = .dec (fieldLen cw) (fieldData cw) := by
  unfold decodeCommand; rw [if_neg (by rw [h]; decide), if_neg (by rw [h]; decide), if_neg (by rw [h]; decide)]

end Sys2Proof.Machine
end

