-- ==== Sys2Proof/Laws/Step.lean ====
section
/-! SUPPORT. What one step can do, said once. Every claim about steps goes by `step_cases`. -/

namespace Sys2Proof.Machine

/-- The port values drive the step's kind. -/
theorem step_reset (s : State) (h : s.port.rst = true) : step s = .next s.advanceInputs.resetStep := by
  unfold step; rw [if_pos h]

theorem step_quiet (s : State) (h : s.port.rst = false) (hp : s.phase = .idle) (hv : s.port.cmdValid = false) :
    step s = .next s.advanceInputs := by
  simp [step, State.fetch, h, hp, hv]

/-- An idle engine's step with a command presented is that command's `Accept` (30_encoding.md R44). -/
theorem step_accept (s : State) (h : s.port.rst = false) (hp : s.phase = .idle) (hv : s.port.cmdValid = true) :
    step s = exec (decodeCommand s.port.cmd) s.advanceInputs := by
  simp [step, State.fetch, h, hp, hv, decode]

theorem step_ks (s : State) (h : s.port.rst = false) (hp : s.phase = .ks) :
    step s = .next (ksStep s.advanceInputs) := by
  simp [step, State.fetch, h, hp, decode, Phase.code, exec, execKsStep, whenEnabled]

theorem step_blk (s : State) (h : s.port.rst = false) (hp : s.phase = .blk) :
    step s = .next (blkRound s.advanceInputs) := by
  simp [step, State.fetch, h, hp, decode, Phase.code, exec, execBlkRound, whenEnabled]

theorem step_fin (s : State) (h : s.port.rst = false) (hp : s.phase = .fin) :
    step s = .next (blkFinal s.advanceInputs) := by
  simp [step, State.fetch, h, hp, decode, Phase.code, exec, execBlkFinal, whenEnabled]

/-- `exec` of a command while idle: what `Accept` does with it. -/
theorem exec_command (cw : CommandWord) (s : State) (hp : s.phase = .idle) :
    (fieldOp cw = 0b00 ∧ exec (decodeCommand cw) s = .next (s.raise .illegalCommand)) ∨
    (fieldOp cw = 0b01 ∧ exec (decodeCommand cw) s = .next (acceptDks (fieldLen cw) (fieldData cw) s)) ∨
    (fieldOp cw = 0b10 ∧ exec (decodeCommand cw) s = .next (acceptBlock .encrypt (fieldLen cw) (fieldData cw) s)) ∨
    (fieldOp cw = 0b11 ∧ exec (decodeCommand cw) s = .next (acceptBlock .decrypt (fieldLen cw) (fieldData cw) s)) := by
  rcases op_cases (fieldOp cw) with h | h | h | h
  · exact .inl ⟨h, by rw [decodeCommand_reserved h, exec_reserved hp]⟩
  · exact .inr (.inl ⟨h, by rw [decodeCommand_dks h, exec_dks hp]⟩)
  · exact .inr (.inr (.inl ⟨h, by rw [decodeCommand_enc h, exec_enc hp]⟩))
  · exact .inr (.inr (.inr ⟨h, by rw [decodeCommand_dec h, exec_dec hp]⟩))

/-- If a step answers next, it is a `Reset`, or nothing was enabled, or it is the `Accept` of a command that raises a
fault or starts, or it is the `Tick` of the phase. -/
theorem step_cases {s t : State} (h : step s = .next t) :
    (s.port.rst = true ∧ t = s.advanceInputs.resetStep) ∨
    (s.port.rst = false ∧ s.phase = .idle ∧ s.port.cmdValid = false ∧ t = s.advanceInputs) ∨
    (s.port.rst = false ∧ s.phase = .idle ∧ s.port.cmdValid = true ∧
      ((∃ fault, t = s.advanceInputs.raise fault) ∨
       (fieldOp s.port.cmd = 0b01 ∧ fieldLen s.port.cmd = 8 ∧ t = ksInit (fieldData s.port.cmd) s.advanceInputs) ∨
       (fieldLen s.port.cmd = 8 ∧ s.kvalid = true ∧
         ∃ dir, fieldOp s.port.cmd = opOfDir dir ∧ t = blkInit dir (fieldData s.port.cmd) s.advanceInputs))) ∨
    (s.port.rst = false ∧ s.phase = .ks ∧ t = ksStep s.advanceInputs) ∨
    (s.port.rst = false ∧ s.phase = .blk ∧ t = blkRound s.advanceInputs) ∨
    (s.port.rst = false ∧ s.phase = .fin ∧ t = blkFinal s.advanceInputs) := by
  cases hr : s.port.rst with
  | true => rw [step_reset s hr] at h; injection h with h; exact .inl ⟨rfl, h.symm⟩
  | false =>
    right
    cases hp : s.phase with
    | ks => rw [step_ks s hr hp] at h; injection h with h; simp [h.symm]
    | blk => rw [step_blk s hr hp] at h; injection h with h; simp [h.symm]
    | fin => rw [step_fin s hr hp] at h; injection h with h; simp [h.symm]
    | idle =>
      cases hv : s.port.cmdValid with
      | false => rw [step_quiet s hr hp hv] at h; injection h with h; simp [h.symm]
      | true =>
        refine .inr (.inl ⟨rfl, rfl, rfl, ?_⟩)
        rw [step_accept s hr hp hv] at h
        have block : ∀ dir, fieldOp s.port.cmd = opOfDir dir →
            t = acceptBlock dir (fieldLen s.port.cmd) (fieldData s.port.cmd) s.advanceInputs →
            (∃ fault, t = s.advanceInputs.raise fault) ∨ (fieldLen s.port.cmd = 8 ∧ s.kvalid = true ∧
              ∃ dir, fieldOp s.port.cmd = opOfDir dir ∧ t = blkInit dir (fieldData s.port.cmd) s.advanceInputs) := by
          intro dir ho ht
          rcases acceptBlock_cases dir (fieldLen s.port.cmd) (fieldData s.port.cmd) s.advanceInputs with
            ⟨hl, hk, e⟩ | ⟨-, -, e⟩ | ⟨-, e⟩
          · exact .inr ⟨hl, hk, dir, ho, ht.trans e⟩
          · exact .inl ⟨_, ht.trans e⟩
          · exact .inl ⟨_, ht.trans e⟩
        rcases exec_command s.port.cmd s.advanceInputs hp with ⟨ho, e⟩ | ⟨ho, e⟩ | ⟨ho, e⟩ | ⟨ho, e⟩ <;>
          rw [e] at h <;> injection h with h
        · exact .inl ⟨_, h.symm⟩
        · rcases acceptDks_cases (fieldLen s.port.cmd) (fieldData s.port.cmd) s.advanceInputs with ⟨hl, e'⟩ | ⟨-, e'⟩
          · exact .inr (.inl ⟨ho, hl, h.symm.trans e'⟩)
          · exact .inl ⟨_, h.symm.trans e'⟩
        · rcases block .encrypt ho h.symm with h' | h'
          · exact .inl h'
          · exact .inr (.inr h')
        · rcases block .decrypt ho h.symm with h' | h'
          · exact .inl h'
          · exact .inr (.inr h')

/-! ### Runs -/

theorem run_zero (s : State) : run 0 s = .next s := rfl

theorem run_succ {s t : State} (h : step s = .next t) (k : Nat) : run (k + 1) s = run k t := by
  simp [run, h]

/-- A run is made of shorter runs. -/
theorem run_add {j : Nat} : ∀ {s t : State} (_ : run j s = .next t) (k : Nat), run (j + k) s = run k t := by
  induction j with
  | zero => intro s t h k; cases h; simp
  | succ j ih =>
    intro s t h k
    rw [Nat.add_right_comm]
    simp only [run] at h ⊢
    split at h
    · exact ih h k
    · cases h
    · cases h

/-- A run of this file is a run of the host's. -/
theorem run_eq_core (k : Nat) : ∀ s : State, run k s = Host.Core.run core k s := by
  induction k with
  | zero => intro s; rfl
  | succ k ih =>
    intro s
    refine Eq.trans ?_ (Host.Core.run.eq_2 core s k).symm
    rw [run, show core.step s = step s from rfl]
    cases step s with
    | next t => exact ih t
    | fault r => rfl
    | refused r => rfl

end Sys2Proof.Machine
end

