-- ==== Sys2Proof/Tests/Slice0.lean ====
section
/-! SUPPORT. The model's own tests, and a witness for the hypotheses of each statement of Certificates/Slice0. Expected
values are the spec's (95_test_vectors.md, or the example of the rule named); nothing here is the model's own answer. -/

namespace Sys2Proof.Tests

open Sys2Proof Sys2Proof.Machine

/-! ### Small states -/

/-- An idle engine with no schedule and zeros everywhere. -/
def blank : State where
  rk := Vector.replicate 16 0
  kvalid := false
  c := 0
  d := 0
  l := 0
  r := 0
  rnd := 0
  dir := .encrypt
  phase := .idle
  rsp := 0
  rspValid := false
  inputs := []
  draws := 0

/-- The key of V1. -/
def key1 : Block := 0x133457799BBCDFF1

/-- The plaintext of V1. -/
def plain1 : Block := 0x0123456789ABCDEF

/-- The ciphertext of V1. -/
def cipher1 : Block := 0x85E813540F0AB405

/-- An idle engine with the schedule of V1's key. -/
def keyed : State := { blank with kvalid := true, rk := keySchedule key1 }

/-- An idle engine that is presented `cw`. -/
def presented (s : State) (cw : CommandWord) : State := s.withPort (PortIn.present cw)

/-- A field of the next state. -/
def next? {α : Type} (g : State → α) : Host.Outcome State Fault Refusal → Option α
  | .next s => some (g s)
  | _ => none

/-- The state after `n` steps. -/
def after (n : Nat) (s : State) : State :=
  match run n s with
  | .next t => t
  | _ => s

theorem run_after {n : Nat} {s : State} (h : (next? (fun _ => ()) (run n s)).isSome = true) :
    run n s = .next (after n s) := by
  unfold after
  cases hr : run n s with
  | next t => rfl
  | fault r => rw [hr] at h; cases h
  | refused r => rw [hr] at h; cases h

/-! ### Well-formedness: each check refuses something -/

theorem test_wellFormed_dks : (Instr.dks 7 key1).wellFormed = false := by decide

theorem test_wellFormed_enc : (Instr.enc 9 plain1).wellFormed = false := by decide

theorem test_wellFormed_dec : (Instr.dec 0 cipher1).wellFormed = false := by decide

theorem test_wellFormed_reserved : (Instr.reserved 0).wellFormed = false := by decide

theorem test_wellFormed_asm_len : (AsmLine.command .dks 16 (List.replicate 8 0)).wellFormed = false := by decide

theorem test_wellFormed_asm_operand : (AsmLine.command .enc 3 [0x01, 0x23]).wellFormed = false := by decide

theorem test_wellFormed_asm_raw : (AsmLine.raw (2 ^ 70)).wellFormed = false := by decide

theorem test_wellFormed_good : (Instr.deriveKeySchedule key1).wellFormed = true ∧
    (Instr.encryptBlock plain1).wellFormed = true ∧ (Instr.decryptBlock cipher1).wellFormed = true := by decide

/-! ### Decoding: words written out from 30_encoding.md R38, R39 and V20, and from the table's `SEQ` rows -/

/-- `OP = 01`, `LEN = 1000`, then the 64 bits of the key, most significant first. -/
theorem test_decode_dks_bits : decodeTableWord 72
    0b01_1000_00010011_00110100_01010111_01111001_10011011_10111100_11011111_11110001 = some (.dks 8 key1) := by decide

theorem test_decode_dks_short : decodeTableWord 72 0x17133457799BBCDF00 = some (.dks 7 0x133457799BBCDF00) := by decide

theorem test_decode_enc : decodeTableWord 72 0x280123456789ABCDEF = some (.enc 8 plain1) := by decide

theorem test_decode_dec : decodeTableWord 72 0x3F85E813540F0AB405 = some (.dec 15 cipher1) := by decide

theorem test_decode_reserved : decodeTableWord 72 0x080000000000000000 = some (.reserved 0x80000000000000000) := by decide

theorem test_decode_too_wide : decodeTableWord 72 0x400000000000000000 = none := by decide

theorem test_decode_seq : decodeTableWord 8 0b000 = some (.ksInit 0) ∧ decodeTableWord 8 0b001 = some .ksStep ∧
    decodeTableWord 8 0b010 = some .blkRound ∧ decodeTableWord 8 0b011 = some .blkFinal := by decide

/-- `PHASE` 4 to 7 select nothing (30_encoding.md R45). -/
theorem test_decode_phase_reserved : ∀ w < 8, 4 ≤ w → decodeTableWord 8 w = none := by decide

/-- The selector column of `KS_INIT` and `BLK_INIT`. -/
theorem test_decode_inits :
    decode (.seq 0 0x18133457799BBCDFF1 false) = .ok (.ksInit key1) ∧
    decode (.seq 0 0x280123456789ABCDEF true) = .ok (.blkInit .encrypt plain1) ∧
    decode (.seq 0 0x3885E813540F0AB405 true) = .ok (.blkInit .decrypt cipher1) ∧
    decode (.seq 0 0x280123456789ABCDEF false) = .error .noMicroOperation ∧
    decode (.seq 0 0x17133457799BBCDF00 true) = .error .noMicroOperation ∧
    decode (.seq 0 0x080000000000000000 true) = .error .noMicroOperation := by decide

/-! ### The assembler syntax: the lines of V20 -/

theorem test_asm_dks : assembleText "DKS 0x133457799BBCDFF1".toList = .ok 0x18133457799BBCDFF1 := by decide

theorem test_asm_dks_short : assembleText "DKS/7 0x133457799BBCDF      ; short".toList = .ok 0x17133457799BBCDF00 := by
  decide

theorem test_asm_enc_short : assembleText "ENC/3 0x012345".toList = .ok 0x230123450000000000 := by decide

theorem test_asm_dec_long : assembleText "DEC/15 0x85E813540F0AB405".toList = .ok 0x3F85E813540F0AB405 := by decide

theorem test_asm_raw : assembleText "RAW 0x03FFFFFFFFFFFFFFFF".toList = .ok 0x03FFFFFFFFFFFFFFFF := by decide

theorem test_asm_refused : assembleText "RAW 0x400000000000000000".toList = .error .illFormed ∧
    assembleText "DKS/16 0x133457799BBCDFF1".toList = .error .illFormed ∧
    assembleText "DKS 0x133457799BBCDF".toList = .error .illFormed ∧
    assembleText "KEY 0x133457799BBCDFF1".toList = .error .unknownMnemonic ∧
    assembleText "DKS".toList = .error .badOperand ∧
    assembleText "DKS/ 0x133457799BBCDFF1".toList = .error .badLength := by decide

/-! ### Tables and primitives: V6 to V10, V12, V23 -/

/-- The weighted sums of V23, a transcription check of the tables. -/
def weighted (t : List Nat) : Nat := (t.zipIdx 1).foldl (fun acc e => acc + e.1 * e.2) 0

theorem test_tables_checksums : [tableIP, tableFP, tableE, tableP, tablePC1, tablePC2].map weighted =
    [63600, 63600, 22912, 8009, 46932, 40091] := by decide

theorem test_sboxes_checksums : tableSBOX.map weighted =
    [15455, 15538, 15707, 15614, 15578, 15516, 15510, 15575] := by decide

theorem test_tables_valid : tablesValid = true := by decide

theorem test_permute_one_hot : permute 64 tableIP (0x8000000000000000 : Block) = 0x0000000001000000 ∧
    permute 64 tableFP (0x0000000000000001 : Block) = 0x0200000000000000 ∧
    permute 48 tableE (0x08000000 : Half) = 0x050000000000 ∧ permute 32 tableP (0x00000001 : Half) = 0x00000800 ∧
    permute 56 tablePC1 (0x0100000000000000 : Block) = 0 ∧
    permute 48 tablePC2 (0x00000000000001 : BitVec 56) = 0x000000000100 := by decide +kernel

theorem test_fromBytes : fromBytes #v[0x13, 0x34, 0x57, 0x79, 0x9B, 0xBC, 0xDF, 0xF1] = key1 := by decide

theorem test_toBytes : toBytes cipher1 = #v[0x85, 0xE8, 0x13, 0x54, 0x0F, 0x0A, 0xB4, 0x05] := by decide

theorem test_rotl28 : rotl28 0xF0CCAAF 1 = 0xE19955F ∧ rotl28 0x8000001 2 = 0x0000006 := by decide

/-- `G = 011011` has row 1, column 13, and `SBOX[0][29] = 5` (42_round_function.md R77). -/
theorem test_sbox_row_column : sboxRow 0b011011 = 1 ∧ sboxColumn 0b011011 = 13 ∧ sboxEntry 0 29 = 5 := by decide

theorem test_f : f 0 0 = 0xD8D8DBBC ∧ f 0 0xFFFFFFFFFFFF = 0x38DBF9CB ∧ f 0x80000000 0 = 0xD0585B9E ∧
    f 0x00000001 0 = 0xD05AD19C ∧ f 0xF0AAF0AA 0x1B02EFFC7072 = 0x234AA9BB := by decide +kernel

/-! ### The pure functions: V1, V2, V16 to V18 -/

theorem test_schedule_ends : (keySchedule key1)[1] = 0x79AED9DBC9E5 ∧ (keySchedule key1)[8] = 0xE0DBEBEDE781 ∧
    (keySchedule key1)[14] = 0xBF918D3D3F0A := by decide +kernel

/-- The known-answer vector (V1), the one worked example of the source. -/
theorem test_known_answer : des .encrypt (keySchedule key1) plain1 = cipher1 := by decide +kernel

theorem test_known_answer_back : des .decrypt (keySchedule key1) cipher1 = plain1 := by decide +kernel

/-- V18 reaches many S-box entries. -/
theorem test_many_entries : des .encrypt (keySchedule 0x7CA110454A1A6E57) 0x01A1D6D039776742 = 0x690F5B0D9A26939B := by
  decide +kernel

/-- V16: a position that is not dropped matters. -/
theorem test_undropped_bit : des .encrypt (keySchedule 0x0101010101010102) 0 = 0x869EFD7F9F265A09 := by decide +kernel

/-! ### One step of each instruction: V3, V21, V22 and program P3 -/

theorem test_dks_accepted : next? (fun t => (t.phase, t.rnd, t.kvalid, t.c, t.d, t.rspValid)) (exec (.dks 8 key1) keyed) =
    some (.ks, 0, false, 0xF0CCAAF, 0x556678F, false) := by decide +kernel

theorem test_dks_short : next? (fun t => (t.rsp, t.rspValid, t.kvalid, t.phase))
    (exec (.dks 7 0x133457799BBCDF00) keyed) = some (0x10000000000000000, true, true, .idle) := by decide +kernel

theorem test_enc_accepted : next? (fun t => (t.phase, t.rnd, t.dir, t.l, t.r, t.rspValid)) (exec (.enc 8 plain1) keyed) =
    some (.blk, 0, .encrypt, 0xCC00CCFF, 0xF0AAF0AA, false) := by decide +kernel

/-- `ENC/3` without a schedule: `InvalidLength`, not `NoSchedule`. -/
theorem test_enc_short : next? (fun t => (t.rsp, t.rspValid)) (exec (.enc 3 0x0123450000000000) blank) =
    some (0x10000000000000000, true) := by decide

theorem test_dec_accepted : next? (fun t => (t.phase, t.dir, t.l, t.r)) (exec (.dec 8 cipher1) keyed) =
    some (.blk, .decrypt, 0x0A4CD995, 0x43423234) := by decide +kernel

theorem test_dec_no_schedule : next? (fun t => (t.rsp, t.rspValid, t.phase)) (exec (.dec 8 cipher1) blank) =
    some (0x20000000000000000, true, .idle) := by decide

/-- `OP = 00`, `LEN = 3`: `IllegalCommand`, not `InvalidLength`. -/
theorem test_reserved : next? (fun t => (t.rsp, t.rspValid, t.kvalid)) (exec (.reserved 0x3FFFFFFFFFFFFFFFF) keyed) =
    some (0x30000000000000000, true, true) := by decide +kernel

theorem test_ksInit : next? (fun t => (t.phase, t.c, t.d)) (exec (.ksInit key1) blank) =
    some (.ks, 0xF0CCAAF, 0x556678F) := by decide +kernel

theorem test_ksStep_first : next? (fun t => (t.phase, t.rnd, t.kvalid, t.c, t.d, t.rk[0]))
    (exec .ksStep { blank with phase := .ks, c := 0xF0CCAAF, d := 0x556678F }) =
    some (.ks, 1, false, 0xE19955F, 0xAACCF1E, 0x1B02EFFC7072) := by decide +kernel

theorem test_ksStep_last : next? (fun t => (t.phase, t.rnd, t.kvalid, t.c, t.rk[15], t.rsp))
    (exec .ksStep { blank with phase := .ks, rnd := 15, c := 0xF866557, d := 0xAAB33C7, rsp := 7 }) =
    some (.idle, 0, true, 0xF0CCAAF, 0xCB3D8B0E17F5, 0) := by decide +kernel

theorem test_blkInit : next? (fun t => (t.phase, t.dir, t.l, t.r, t.rspValid))
    (exec (.blkInit .decrypt cipher1) { blank with kvalid := true, rspValid := true }) =
    some (.blk, .decrypt, 0x0A4CD995, 0x43423234, false) := by decide +kernel

theorem test_blkRound_first : next? (fun t => (t.phase, t.rnd, t.l, t.r))
    (exec .blkRound { blank with
      phase := .blk, kvalid := true, l := 0xCC00CCFF, r := 0xF0AAF0AA, rk := blank.rk.set 0 0x1B02EFFC7072 }) =
    some (.blk, 1, 0xF0AAF0AA, 0xEF4A6544) := by decide +kernel

/-- The last round of V22, which reads `RK[0]`. -/
theorem test_blkRound_last_decrypt : next? (fun t => (t.phase, t.rnd, t.l, t.r))
    (exec .blkRound { blank with
      phase := .blk, kvalid := true, dir := .decrypt, rnd := 15, l := 0xEF4A6544, r := 0xF0AAF0AA,
      rk := blank.rk.set 0 0x1B02EFFC7072 }) =
    some (.fin, 0, 0xF0AAF0AA, 0xCC00CCFF) := by decide +kernel

theorem test_blkFinal : next? (fun t => (t.phase, t.rsp, t.rspValid, t.l))
    (exec .blkFinal { blank with phase := .fin, kvalid := true, l := 0x43423234, r := 0x0A4CD995 }) =
    some (.idle, 0x085E813540F0AB405, true, 0x43423234) := by decide +kernel

/-! ### Steps -/

/-- From reset, the first step runs the command presented. -/
theorem test_step_from_reset : next? (fun t => (t.phase, t.c, t.d))
    (step (State.reset.withFetchWord 72 0x18133457799BBCDFF1)) = some (.ks, 0xF0CCAAF, 0x556678F) := by decide +kernel

/-- A command presented while busy is not looked at: the step is the `Tick`. -/
theorem test_step_busy : next? (fun t => (t.phase, t.rsp)) (step (presented
    { blank with phase := .fin, kvalid := true, l := 0x43423234, r := 0x0A4CD995 } 0x080000000000000000)) =
    some (.idle, 0x085E813540F0AB405) := by decide +kernel

/-- `rst` in the step in which a command is presented: the command is not accepted (60_exceptions.md R116). -/
theorem test_step_reset_wins : next? (fun t => (t.phase, t.kvalid, t.rsp, t.rspValid))
    (step (keyed.withPort { rst := true, cmdValid := true, cmd := 0x280123456789ABCDEF })) =
    some (.idle, false, 0, false) := by decide

/-- A reserved `PHASE` code is not `IDLE` (70_reset_and_hazards.md R132). -/
theorem test_phase_reserved : ∀ p : BitVec 3, 4 ≤ p.toNat → phaseOfCode p = none := by decide

/-- The four codes of 10_state.md R17. -/
theorem test_phase_codes : phaseOfCode 0 = some .idle ∧ phaseOfCode 1 = some .ks ∧ phaseOfCode 2 = some .blk ∧
    phaseOfCode 3 = some .fin := by decide

/-! ### Witnesses: the hypotheses of each statement can be met together -/

theorem witness_PermuteSelectsPositions : tablePC1.length = 56 ∧ 55 < 56 ∧ tableIP.length = 64 ∧ tableFP.length = 64 ∧
    ∀ i < 64, tableFP.getD i 0 < 64 ∧ tableIP.getD (tableFP.getD i 0) 0 = i := by decide

theorem witness_bounds : (0 < 8 ∧ 7 < 8) ∧ (0 < 28 ∧ 27 < 28) ∧ (0 < 16 ∧ 15 < 16) ∧ (0 < 32 ∧ 31 < 32) ∧ (0 < 64 ∧ 63 < 64) := by
  decide

theorem witness_ParityBitsAreIgnored :
    ∀ p < 64, p % 8 ≠ 7 → key1.getMsbD p = (0x123456789ABCDEF0 : Block).getMsbD p := by decide

theorem witness_RoundFunctionSeesOnlyTheSum : ∀ p < 48,
    ((permute 48 tableE (0 : Half)).getMsbD p ^^ (0 : RoundKey).getMsbD p) =
    ((permute 48 tableE (0xFFFFFFFF : Half)).getMsbD p ^^ (0xFFFFFFFFFFFF : RoundKey).getMsbD p) := by decide +kernel

theorem witness_PalindromicSchedules : ∀ i : Fin 16, blank.rk[i] = blank.rk[15 - i.val]'(by omega) := by decide

theorem witness_CommandWordFields : fieldOp 0x080000000000000000 = 0b00 ∧ fieldOp 0x18133457799BBCDFF1 = 0b01 ∧
    fieldOp 0x280123456789ABCDEF = 0b10 ∧ fieldOp 0x3F85E813540F0AB405 = 0b11 := by decide

theorem witness_AssembledFields : (0 ≤ 15 ∧ ([] : List Byte).length = min 0 8) ∧
    (7 ≤ 15 ∧ (List.replicate 7 (0xFF : Byte)).length = min 7 8) ∧
    (15 ≤ 15 ∧ (List.replicate 8 (0xFF : Byte)).length = min 15 8) ∧ 2 ^ 70 - 1 < 2 ^ 70 ∧
    15 < 16 ∧ ([0x01, 0x23] : List Byte).length ≠ min 3 8 ∧ (List.replicate 9 (0xFF : Byte)).length ≠ min 9 8 ∧
    2 ^ 70 ≤ 2 ^ 70 := by decide

/-- Idle and presented with a command; and busy. -/
theorem witness_StepRunsDecodedInstruction :
    ((presented blank 0x230123450000000000).port.rst = false ∧
      (presented blank 0x230123450000000000).fetch = some (.cw 0x230123450000000000) ∧
      decode (.cw 0x230123450000000000) = .ok (.enc 3 0x0123450000000000)) ∧
    ({ blank with phase := .ks }.port.rst = false ∧
      { blank with phase := .ks }.fetch = some (.seq 1 0 false) ∧ decode (.seq 1 0 false) = .ok .ksStep) := by decide

theorem witness_StepRunsSelectedMicroOperation :
    ((presented blank 0x18133457799BBCDFF1).port.rst = false ∧
      (presented blank 0x18133457799BBCDFF1).port.cmdValid = true ∧
      decode (.seq Phase.idle.code 0x18133457799BBCDFF1 false) = .ok (.ksInit key1)) ∧
    ({ blank with phase := .fin }.port.rst = false ∧ decode (.seq Phase.fin.code 0 false) = .ok .blkFinal) := by decide

/-- Idle, presented, not reset: whatever the word and the schedule. One word for each outcome. -/
theorem witness_AcceptHasFiveOutcomes (cw : CommandWord) (k : Bool) :
    ((presented { blank with kvalid := k } cw).port.rst = false ∧ (presented { blank with kvalid := k } cw).phase = .idle ∧
      (presented { blank with kvalid := k } cw).port.cmdValid = true) ∧
    (0x03FFFFFFFFFFFFFFFF : CommandWord).extractLsb' 68 2 = 0b00 ∧
    (0x17133457799BBCDF00 : CommandWord).extractLsb' 64 4 ≠ 8 ∧
    ((0x18133457799BBCDFF1 : CommandWord).extractLsb' 64 4 = 8 ∧
      (0x18133457799BBCDFF1 : CommandWord).extractLsb' 68 2 = 0b01) ∧
    ((0x3885E813540F0AB405 : CommandWord).extractLsb' 64 4 = 8 ∧
      (0x3885E813540F0AB405 : CommandWord).extractLsb' 68 2 = 0b11) := ⟨⟨rfl, rfl, rfl⟩, by decide⟩

theorem witness_TickRunsToIdle : (∀ p ∈ [Phase.ks, .blk, .fin], ∀ n ∈ [(0 : BitVec 4), 15],
      { blank with phase := p, rnd := n }.port.rst = false ∧ { blank with phase := p, rnd := n }.phase ≠ .idle) ∧
    noReset 17 { blank with phase := .blk } := ⟨by decide, (fun _ h => nomatch h)⟩

theorem witness_ResetStepRestoresControl :
    ({ keyed with phase := .blk }.withPort PortIn.reset).port.rst = true := by decide

theorem witness_OnlyAnIdleEngineAccepts :
    ({ blank with phase := .ks }.phase ≠ .idle ∧ PortIn.quiet.rst = (PortIn.present 0x280123456789ABCDEF).rst) ∧
    (blank.phase = .idle ∧ blank.port.rst = false ∧ blank.port.cmdValid = false) := by decide

theorem witness_ExecContinuesExactlyWhenEnabled : enabled (.dks 8 key1) blank = true ∧ enabled .ksStep blank = false ∧
    enabled (.blkInit .encrypt plain1) blank = false ∧
    enabled (.blkInit .encrypt plain1) { blank with kvalid := true } = true := by decide

/-- The states of `KsInitLoadsThePermutedKey` to `BlkFinalRespondsWithTheBlock`: each phase, the first and the last round,
both directions, with and without a schedule. -/
theorem witness_micro_operations : blank.phase = .idle ∧
    (∀ n ∈ [(0 : BitVec 4), 14, 15], { blank with phase := .ks, rnd := n }.phase = .ks) ∧
    ({ blank with kvalid := true }.phase = .idle ∧ { blank with kvalid := true }.kvalid = true) ∧
    (∀ n ∈ [(0 : BitVec 4), 15], ∀ dir ∈ [Dir.encrypt, .decrypt],
      { blank with phase := .blk, rnd := n, dir := dir }.phase = .blk ∧
      ∃ j : Fin 16, j.val = (match dir with | .encrypt => n.toNat | .decrypt => 15 - n.toNat)) ∧
    { blank with phase := .fin }.phase = .fin := by decide

/-- The host drives nothing, which resets nothing; the lengths on either side of 8. -/
theorem witness_DksDerivesTheSchedule : blank.phase = .idle ∧ noReset 16 blank ∧ (7 : BitVec 4) ≠ 8 ∧ (9 : BitVec 4) ≠ 8 :=
  ⟨rfl, (fun _ h => nomatch h), by decide, by decide⟩

theorem witness_BlockCommandsRespondWithDes : (blank.phase = .idle ∧ noReset 17 blank ∧ blank.kvalid = false) ∧
    (keyed.phase = .idle ∧ noReset 17 keyed ∧ keyed.kvalid = true) :=
  ⟨⟨rfl, (fun _ h => nomatch h), rfl⟩, ⟨rfl, (fun _ h => nomatch h), rfl⟩⟩

theorem witness_AcceptedCommandsStart : blank.phase = .idle ∧ keyed.phase = .idle ∧ keyed.kvalid = true := ⟨rfl, rfl, rfl⟩

theorem witness_WrongLengthFaults : blank.phase = .idle ∧ (∀ len ∈ [(0 : BitVec 4), 7, 9, 15], len ≠ 8) ∧
    Instr.dks 7 key1 ∈ [Instr.dks 7 key1, .enc 7 key1, .dec 7 key1] := by decide

theorem witness_BlockCommandWithoutScheduleFaults : blank.phase = .idle ∧ blank.kvalid = false ∧
    Instr.dec 8 cipher1 ∈ [Instr.enc 8 cipher1, .dec 8 cipher1] := by decide

theorem witness_ReservedCommandFaults : blank.phase = .idle := rfl

/-- Idle, presented, not reset, whatever the word; one word for each clause, the first of them with a length that is not
8 either; and `rst` with a command. -/
theorem witness_FaultPriority (cw : CommandWord) :
    ((presented blank cw).port.rst = false ∧ (presented blank cw).phase = .idle ∧ (presented blank cw).port.cmdValid = true) ∧
    ((blank.withPort { rst := true, cmdValid := true, cmd := cw }).port.rst = true ∧
      (blank.withPort { rst := true, cmdValid := true, cmd := cw }).port.cmdValid = true) ∧
    fieldOp 0x03FFFFFFFFFFFFFFFF = 0b00 ∧ (fieldOp 0x230123450000000000 ≠ 0b00 ∧ fieldLen 0x230123450000000000 ≠ 8) ∧
    (fieldOp 0x280123456789ABCDEF = 0b10 ∧ fieldLen 0x280123456789ABCDEF = 8 ∧ blank.kvalid = false) :=
  ⟨⟨rfl, rfl, rfl⟩, ⟨rfl, rfl⟩, by decide⟩

theorem witness_AFaultLeavesOnlyItsResponse : exec (.reserved 0) blank = .next (blank.raise .illegalCommand) ∧
    faultReported (blank.raise .illegalCommand) = true := ⟨rfl, by decide⟩

theorem witness_FaultsAreNotSticky : blank.phase = .idle ∧ exec (.dks 8 key1) blank = .next (ksInit key1 blank) := ⟨rfl, rfl⟩

theorem witness_DksRunOfSeventeenSteps :
    (presented blank (commandWord 0b01 8 key1)).phase = .idle ∧
    (presented blank (commandWord 0b01 8 key1)).port = PortIn.present (commandWord 0b01 8 key1) ∧
    noReset 17 (presented blank (commandWord 0b01 8 key1)) ∧ 0 < 1 ∧ 1 < 17 ∧ 16 < 17 :=
  ⟨rfl, rfl, by simp [noReset, presented, State.withPort, blank, PortIn.present], by decide⟩

theorem witness_BlockRunOfEighteenSteps : ∀ dir : Dir,
    (presented keyed (commandWord (opOfDir dir) 8 plain1)).phase = .idle ∧
    (presented keyed (commandWord (opOfDir dir) 8 plain1)).kvalid = true ∧
    (presented keyed (commandWord (opOfDir dir) 8 plain1)).port = PortIn.present (commandWord (opOfDir dir) 8 plain1) ∧
    noReset 18 (presented keyed (commandWord (opOfDir dir) 8 plain1)) ∧ 17 < 18 := fun _ =>
  ⟨rfl, rfl, rfl, by simp [noReset, presented, State.withPort, keyed, blank, PortIn.present], by decide⟩

/-- The host presents `ENC` of V1's plaintext, nothing for 18 steps, then `DEC` of its ciphertext. -/
def roundTrip : State :=
  { keyed with inputs := PortIn.present 0x280123456789ABCDEF ::
      (List.replicate 18 PortIn.quiet ++ [PortIn.present 0x3885E813540F0AB405]) }

theorem witness_EngineRoundTrip :
    roundTrip.phase = .idle ∧ roundTrip.kvalid = true ∧
    roundTrip.port = PortIn.present (commandWord (opOfDir .encrypt) 8 plain1) ∧ noReset 18 roundTrip ∧
    run 18 roundTrip = .next (after 18 roundTrip) ∧ run 1 (after 18 roundTrip) = .next (after 1 (after 18 roundTrip)) ∧
    noRekey 1 (after 18 roundTrip) ∧ (after 1 (after 18 roundTrip)).phase = .idle ∧
    (after 1 (after 18 roundTrip)).port =
      PortIn.present (commandWord (opOfDir (otherDir .encrypt)) 8 (responseData (after 18 roundTrip).rsp)) ∧
    noReset 18 (after 1 (after 18 roundTrip)) ∧
    run 18 (after 1 (after 18 roundTrip)) = .next (after 18 (after 1 (after 18 roundTrip))) := by
  refine ⟨rfl, rfl, by decide, ?_, run_after (by decide +kernel), run_after (by decide +kernel), ?_, by decide +kernel,
    by decide +kernel, ?_, run_after (by decide +kernel)⟩
  · show ∀ p ∈ _, _
    decide +kernel
  · intro j hj w hw
    obtain rfl : j = 0 := by omega
    cases hw
    decide +kernel
  · show ∀ p ∈ _, _
    decide +kernel

/-- An idle engine with a schedule, and one in the first round of a `DKS`, keep the invariant and step on. -/
theorem witness_EveryStepKeepsTheInvariant :
    (Inv keyed ∧ step keyed = .next keyed.advanceInputs) ∧
    (Inv (ksInit key1 blank) ∧ step (ksInit key1 blank) = .next (ksStep (ksInit key1 blank).advanceInputs)) := by
  refine ⟨⟨⟨⟨?_, ?_, ?_, ?_, ?_⟩, ⟨fun _ => ⟨key1, rfl⟩, ?_⟩⟩, rfl⟩, ⟨⟨⟨?_, ?_, ?_, ?_, ?_⟩, ⟨?_, fun _ => ⟨key1, rfl, ?_⟩⟩⟩, rfl⟩⟩
  · decide
  · decide
  · decide
  · decide
  · decide
  · intro h; cases h
  · decide
  · decide
  · decide
  · decide
  · decide
  · intro h; cases h
  · intro i hi; exact absurd hi (Nat.not_lt_zero _)

theorem witness_AScheduleIsReadOnly :
    (step (presented keyed 0x17133457799BBCDF00) =
        .next ((presented keyed 0x17133457799BBCDF00).advanceInputs.raise .invalidLength) ∧
      (presented keyed 0x17133457799BBCDF00).port.rst = false ∧
      (presented keyed 0x17133457799BBCDF00).phase ≠ .ks ∧ rekeys (presented keyed 0x17133457799BBCDF00) = false) ∧
    (noRekey 1 (presented keyed 0x17133457799BBCDF00) ∧ ∃ t, run 1 (presented keyed 0x17133457799BBCDF00) = .next t) := by
  refine ⟨⟨rfl, by decide, by decide, by decide⟩, ?_, _, rfl⟩
  intro j hj w hw
  obtain rfl : j = 0 := by omega
  cases hw
  decide

/-- They differ in the residue and, having no schedule, in the store. -/
theorem witness_TheHostCannotSeeResidue :
    SameToHost blank { blank with rk := keySchedule key1, c := 1, d := 2, l := 3, r := 4, rnd := 5, dir := .decrypt, draws := 6 } :=
  ⟨rfl, rfl, rfl, (fun h => nomatch h), rfl, rfl, rfl⟩

theorem witness_BlockResponsesAreDetermined (dir : Dir) :
    let s₁ := presented keyed (commandWord (opOfDir dir) 8 plain1)
    let s₂ := presented { keyed with c := 1, l := 2, rnd := 3, rsp := 4 } (commandWord (opOfDir dir) 8 plain1)
    s₁.phase = .idle ∧ s₂.phase = .idle ∧ s₁.kvalid = true ∧ s₂.kvalid = true ∧ s₁.rk = s₂.rk ∧
    s₁.port = PortIn.present (commandWord (opOfDir dir) 8 plain1) ∧
    s₂.port = PortIn.present (commandWord (opOfDir dir) 8 plain1) ∧ noReset 18 s₁ ∧ noReset 18 s₂ :=
  ⟨rfl, rfl, rfl, rfl, rfl, rfl, rfl, by simp [noReset, presented, State.withPort, keyed, blank, PortIn.present],
    by simp [noReset, presented, State.withPort, keyed, blank, PortIn.present]⟩

/-- A fault, the last `KS_STEP`, `BLK_FINAL`; and a step that does not respond. -/
theorem witness_OnlyCompletionsRespond :
    (∀ s ∈ [presented blank 0, { blank with phase := .ks, rnd := 15 }, { blank with phase := .fin },
        { blank with phase := .ks }],
      s.port.rst = false ∧ (s.phase = .idle → s.port.cmdValid = true) ∧ (next? State.rspValid (step s)).isSome = true) ∧
    next? State.rspValid (step (presented blank 0)) = some true ∧
    next? State.rspValid (step { blank with phase := .ks }) = some false := by decide

/-- A fault, the last `KS_STEP` while `RSP` holds what it will respond, and `BLK_FINAL` respond; a fault and `BLK_FINAL`
change `RSP`. -/
theorem witness_OnlyTheFinalStepRespondsWithData :
    (∀ s ∈ [presented blank 0, { blank with phase := .ks, rnd := 15 }, { blank with phase := .fin, l := 1 }],
      s.port.rst = false ∧ (s.phase = .idle → s.port.cmdValid = true) ∧ next? State.rspValid (step s) = some true) ∧
    next? (fun t => t.rsp == blank.rsp) (step { blank with phase := .ks, rnd := 15 }) = some true ∧
    next? (fun t => t.rsp != (presented blank 0).rsp) (step (presented blank 0)) = some true ∧
    next? (fun t => t.rsp != blank.rsp) (step { blank with phase := .fin, l := 1 }) = some true := by decide +kernel

/-- Two engines in the middle of a `DKS`, and two in the rounds of a block command, that differ in the rest; each steps. -/
theorem witness_EveryStepKeepsIndistinguishable :
    (Indistinguishable { blank with phase := .ks } { blank with phase := .ks, kvalid := true, rk := keySchedule key1, l := 1 } ∧
      (next? State.rnd (step { blank with phase := .ks })).isSome = true) ∧
    (Indistinguishable { keyed with phase := .blk } { keyed with phase := .blk, c := 1, d := 2, draws := 3 } ∧
      (next? State.l (step { keyed with phase := .blk })).isSome = true) ∧
    Indistinguishable { blank with phase := .fin } { blank with phase := .fin, rnd := 1, dir := .decrypt } ∧
    SameToHost blank { blank with rk := keySchedule key1, l := 3 } := by
  refine ⟨⟨⟨rfl, rfl, rfl, rfl, (fun h => absurd rfl h), (fun h => absurd rfl h), fun _ => ⟨rfl, rfl, rfl, ?_⟩,
      (fun h => nomatch h), (fun h => nomatch h)⟩, rfl⟩,
    ⟨⟨rfl, rfl, rfl, rfl, fun _ => rfl, fun _ _ => rfl, (fun h => nomatch h), fun _ => ⟨rfl, rfl, rfl, rfl, rfl⟩,
      (fun h => nomatch h)⟩, rfl⟩,
    ⟨rfl, rfl, rfl, rfl, fun _ => rfl, fun _ _ => rfl, (fun h => nomatch h), (fun h => nomatch h), fun _ => ⟨rfl, rfl⟩⟩,
    ⟨rfl, rfl, rfl, (fun h => nomatch h), rfl, rfl, rfl⟩⟩
  intro i hi
  exact absurd hi (Nat.not_lt_zero _)

theorem witness_ResetAbandonsTheCommand :
    let s : State := { keyed with phase := .blk, inputs := [PortIn.reset, PortIn.quiet] }
    let s' : State := { keyed with phase := .ks, inputs := [PortIn.reset, PortIn.present (commandWord (opOfDir .decrypt) 8 cipher1)] }
    (s.port.rst = true ∧ step s = .next s.advanceInputs.resetStep ∧
      ∀ p ∈ s.advanceInputs.resetStep.inputs.take 1, p.rst = false ∧ p.cmdValid = false) ∧
    (s'.port.rst = true ∧ step s' = .next s'.advanceInputs.resetStep ∧
      s'.advanceInputs.resetStep.port = PortIn.present (commandWord (opOfDir .decrypt) 8 cipher1)) := by
  refine ⟨⟨rfl, rfl, ?_⟩, rfl, rfl, rfl⟩
  intro p hp
  have hp : p ∈ [PortIn.quiet] := hp
  obtain rfl := List.mem_singleton.1 hp
  decide

end Sys2Proof.Tests
end

section
/-! Proofs of the statements about the engine's state (spec/10_state.md): what holds after a reset, which steps respond,
the invariant, and what the host cannot see. -/

namespace Sys2Proof.Machine

/-! ### The input ports -/

@[simp] theorem State.withPort_port (s : State) (p : PortIn) : (s.withPort p).port = p := rfl

@[simp] theorem State.withPort_advanceInputs (s : State) (p : PortIn) :
    (s.withPort p).advanceInputs = s.advanceInputs := rfl

theorem port_congr {s₁ s₂ : State} (h : s₁.inputs = s₂.inputs) : s₁.port = s₂.port := by
  rw [State.port, State.port, h]

/-! ### A schedule being derived -/

/-- `s` is after round `n` of the derivation of `key`'s schedule (41_key_schedule.md R70): the halves after `n` rounds are
in `C` and `D`, the first `n` round keys in the store. `ScheduleInv.progress` says it of `n = RND`. -/
def Derived (key : Block) (n : Nat) (s : State) : Prop :=
  (s.c, s.d) = keyHalves key n ∧ ∀ i : Fin 16, i.val < n → s.rk[i] = roundKey key i.val

theorem ScheduleInv.derived {s : State} (h : ScheduleInv s) (hp : s.phase = .ks) : ∃ key, Derived key s.rnd.toNat s :=
  h.progress hp

theorem derived_ksInit (key : Block) (s : State) : Derived key 0 (ksInit key s) :=
  ⟨rfl, fun _ hi => absurd hi (Nat.not_lt_zero _)⟩

/-- One more round: the halves rotate, and the round key made from them goes behind those stored so far. -/
theorem derived_rotateAndStore {key : Block} {s : State} (h : Derived key s.rnd.toNat s) :
    Derived key (s.rnd.toNat + 1) (rotateAndStore s) := by
  obtain ⟨hcd, hrk⟩ := h
  have hhalves : keyHalves key (s.rnd.toNat + 1) =
      (rotl28 s.c (shiftAmount s.rnd.toNat), rotl28 s.d (shiftAmount s.rnd.toNat)) := by
    rw [keyHalves, ← hcd]
  refine ⟨hhalves.symm, fun i hi => ?_⟩
  simp only [rotateAndStore_rk, Fin.getElem_fin, Vector.getElem_set]
  split
  case isTrue heq => rw [← heq, roundKey, hhalves]; rfl
  case isFalse hne => exact hrk i (by omega)

/-- After sixteen rounds the store is the schedule (41_key_schedule.md R63). -/
theorem rk_eq_keySchedule_of_derived {key : Block} {s : State} (h : Derived key 16 s) : s.rk = keySchedule key := by
  apply Vector.ext
  intro i hi
  rw [keySchedule, Vector.getElem_ofFn]
  exact h.2 ⟨i, hi⟩ hi

/-! ### The invariant, one lemma for each thing a step can do -/

/-- The invariant holds after every reset, whatever the unspecified registers hold. -/
theorem afterReset_inv (n : Nat) (inputs : List PortIn) : Inv (State.afterReset n inputs) where
  left :=
    { block_has_schedule := nofun
      derivation_invalidates := nofun
      final_after_rounds := nofun
      response_when_idle := nofun
      fault_without_data := fun _ => rfl }
  right := { valid_is_schedule := nofun, progress := nofun }

theorem advanceInputs_keeps_inv {s : State} (h : Inv s) : Inv s.advanceInputs := by
  obtain ⟨hc, hs⟩ := h
  exact ⟨⟨hc.block_has_schedule, hc.derivation_invalidates, hc.final_after_rounds, hc.response_when_idle,
    hc.fault_without_data⟩, ⟨hs.valid_is_schedule, hs.progress⟩⟩

/-- Taking a fault keeps the schedule and responds without data. -/
theorem raise_keeps_inv {s : State} (h : Inv s) (hp : s.phase = .idle) (fault : Raised) : Inv (s.raise fault) := by
  obtain ⟨hc, hs⟩ := h
  exact ⟨⟨hc.block_has_schedule, hc.derivation_invalidates, hc.final_after_rounds, fun _ => hp,
    fun _ => responseData_word _ 0⟩, ⟨hs.valid_is_schedule, hs.progress⟩⟩

/-- A derivation starts with the schedule invalid and no round key stored. -/
theorem ksInit_keeps_inv {s : State} (h : Inv s) (key : Block) : Inv (ksInit key s) where
  left :=
    { block_has_schedule := nofun
      derivation_invalidates := fun _ => rfl
      final_after_rounds := nofun
      response_when_idle := nofun
      fault_without_data := h.1.fault_without_data }
  right := { valid_is_schedule := nofun, progress := fun _ => ⟨key, derived_ksInit key s⟩ }

/-- A round of a derivation stores one more round key of the same key; the last makes the whole schedule valid. -/
theorem ksStep_keeps_inv {s : State} (h : Inv s) (hp : s.phase = .ks) : Inv (ksStep s) := by
  obtain ⟨hc, hs⟩ := h
  obtain ⟨key, hkey⟩ := hs.derived hp
  have hnext := derived_rotateAndStore hkey
  have hkv := hc.derivation_invalidates hp
  rcases ksStep_cases s with ⟨hlast, e⟩ | ⟨hinner, e⟩ <;> rw [e]
  · rw [hlast] at hnext
    exact ⟨⟨nofun, nofun, nofun, fun _ => rfl, fun _ => responseData_word .ok 0⟩,
      ⟨fun _ => ⟨key, rk_eq_keySchedule_of_derived hnext⟩, nofun⟩⟩
  · rw [← rnd_succ hinner] at hnext
    refine ⟨⟨?_, fun _ => hkv, ?_, nofun, hc.fault_without_data⟩, ⟨?_, fun _ => ⟨key, hnext⟩⟩⟩
    · simp [hp]
    · simp [hp]
    · simp [hkv]

/-- A block command starts only with a schedule. -/
theorem blkInit_keeps_inv {s : State} (h : Inv s) (hk : s.kvalid = true) (dir : Dir) (data : Block) :
    Inv (blkInit dir data s) where
  left :=
    { block_has_schedule := fun _ => hk
      derivation_invalidates := nofun
      final_after_rounds := nofun
      response_when_idle := nofun
      fault_without_data := h.1.fault_without_data }
  right := { valid_is_schedule := h.2.valid_is_schedule, progress := nofun }

/-- A round of a block command keeps the schedule, and the one that leads to `FIN` leaves `RND = 0`. -/
theorem blkRound_keeps_inv {s : State} (h : Inv s) (hp : s.phase = .blk) : Inv (blkRound s) := by
  obtain ⟨hc, hs⟩ := h
  have hk := hc.block_has_schedule (.inl hp)
  by_cases hr : s.rnd = 15
  · rw [blkRound_last s hr]
    exact ⟨⟨fun _ => hk, nofun, fun _ => rfl, nofun, hc.fault_without_data⟩, ⟨hs.valid_is_schedule, nofun⟩⟩
  · rw [blkRound_inner s hr]
    refine ⟨⟨fun _ => hk, ?_, ?_, nofun, hc.fault_without_data⟩, ⟨hs.valid_is_schedule, ?_⟩⟩ <;> simp [hp]

/-- The final permutation responds `OK` in `IDLE` and keeps the schedule. -/
theorem blkFinal_keeps_inv {s : State} (h : Inv s) : Inv (blkFinal s) where
  left :=
    { block_has_schedule := nofun
      derivation_invalidates := nofun
      final_after_rounds := nofun
      response_when_idle := fun _ => rfl
      fault_without_data := fun hcode => absurd (responseCode_word .ok _) hcode }
  right := { valid_is_schedule := h.2.valid_is_schedule, progress := nofun }

theorem step_keeps_inv {s t : State} (h : Inv s) (hstep : step s = .next t) : Inv t := by
  have ha := advanceInputs_keeps_inv h
  rcases step_cases hstep with ⟨-, rfl⟩ | ⟨-, -, -, rfl⟩ |
    ⟨-, hp, -, ⟨fault, rfl⟩ | ⟨-, -, rfl⟩ | ⟨-, hk, dir, -, rfl⟩⟩ | ⟨-, hp, rfl⟩ | ⟨-, hp, rfl⟩ | ⟨-, -, rfl⟩
  · exact afterReset_inv _ _
  · exact ha
  · exact raise_keeps_inv ha hp fault
  · exact ksInit_keeps_inv ha _
  · exact blkInit_keeps_inv ha hk dir _
  · exact ksStep_keeps_inv ha hp
  · exact blkRound_keeps_inv ha hp
  · exact blkFinal_keeps_inv ha

/-- Settles O48, by the lemma of each of the eight things a step can do. -/
theorem everyStepKeepsTheInvariant : Obligations.EveryStepKeepsTheInvariant := by
  unfold Obligations.EveryStepKeepsTheInvariant
  exact fun _ _ => step_keeps_inv

/-- Settles O47: the reset state is one after a reset. -/
theorem invariantHoldsAtReset : Obligations.InvariantHoldsAtReset := by
  unfold Obligations.InvariantHoldsAtReset
  exact afterReset_inv 0 []

/-- Settles O26, by the values `State.afterReset` gives. -/
theorem resetValues : Obligations.ResetValues := by
  unfold Obligations.ResetValues
  exact ⟨rfl, rfl, rfl, rfl⟩

/-! ### Two engines that the host cannot tell apart

Idle, the relation is `SameToHost`; each step leads from it, or from the registers of a command in progress, to
`Indistinguishable`. -/

theorem SameToHost.indistinguishable {s₁ s₂ : State} (h : SameToHost s₁ s₂) : Indistinguishable s₁ s₂ where
  phase := h.idle₁.trans h.idle₂.symm
  rsp := h.rsp
  rspValid := h.rspValid
  inputs := h.inputs
  kvalid _ := h.kvalid
  rk _ := h.rk
  ks hp := by simp [h.idle₁] at hp
  blk hp := by simp [h.idle₁] at hp
  fin hp := by simp [h.idle₁] at hp

/-- Idle engines that are indistinguishable differ only in residue. -/
theorem Indistinguishable.sameToHost {s₁ s₂ : State} (h : Indistinguishable s₁ s₂) (hp : s₁.phase = .idle) :
    SameToHost s₁ s₂ where
  idle₁ := hp
  idle₂ := h.phase.symm.trans hp
  kvalid := h.kvalid (by simp [hp])
  rk := h.rk (by simp [hp])
  rsp := h.rsp
  rspValid := h.rspValid
  inputs := h.inputs

theorem Indistinguishable.outputs_eq {s₁ s₂ : State} (h : Indistinguishable s₁ s₂) : outputs s₁ = outputs s₂ := by
  simp [outputs, cmdReady, h.phase, h.rsp, h.rspValid]

theorem advanceInputs_keeps_indistinguishable {s₁ s₂ : State} (h : Indistinguishable s₁ s₂) :
    Indistinguishable s₁.advanceInputs s₂.advanceInputs where
  phase := h.phase
  rsp := h.rsp
  rspValid := h.rspValid
  inputs := congrArg List.tail h.inputs
  kvalid := h.kvalid
  rk := h.rk
  ks := h.ks
  blk := h.blk
  fin := h.fin

/-- Two resets with the same further inputs differ only in what they leave unspecified. -/
theorem resetStep_sameToHost {s₁ s₂ : State} (h : s₁.inputs = s₂.inputs) : SameToHost s₁.resetStep s₂.resetStep where
  idle₁ := rfl
  idle₂ := rfl
  kvalid := rfl
  rk := nofun
  rsp := rfl
  rspValid := rfl
  inputs := by simpa using h

theorem raise_sameToHost {s₁ s₂ : State} (h : SameToHost s₁ s₂) (fault : Raised) :
    SameToHost (s₁.raise fault) (s₂.raise fault) where
  idle₁ := h.idle₁
  idle₂ := h.idle₂
  kvalid := h.kvalid
  rk := h.rk
  rsp := rfl
  rspValid := rfl
  inputs := h.inputs

/-- `KS_INIT` writes `C`, `D` and `RND` itself, and nothing of the store counts before it is written again. -/
theorem ksInit_indistinguishable {s₁ s₂ : State} (h : SameToHost s₁ s₂) (data : Block) :
    Indistinguishable (ksInit data s₁) (ksInit data s₂) where
  phase := rfl
  rsp := h.rsp
  rspValid := rfl
  inputs := h.inputs
  kvalid hp := absurd rfl hp
  rk hp := absurd rfl hp
  ks _ := ⟨rfl, rfl, rfl, fun _ hi => absurd hi (Nat.not_lt_zero _)⟩
  blk := nofun
  fin := nofun

/-- `BLK_INIT` writes `L`, `R`, `RND` and `DIR` itself. -/
theorem blkInit_indistinguishable {s₁ s₂ : State} (h : SameToHost s₁ s₂) (hk : s₁.kvalid = true) (dir : Dir)
    (data : Block) : Indistinguishable (blkInit dir data s₁) (blkInit dir data s₂) where
  phase := rfl
  rsp := h.rsp
  rspValid := rfl
  inputs := h.inputs
  kvalid _ := h.kvalid
  rk _ := h.rk
  ks := nofun
  blk _ := ⟨hk, rfl, rfl, rfl, rfl⟩
  fin := nofun

theorem acceptDks_indistinguishable {s₁ s₂ : State} (h : SameToHost s₁ s₂) (len : BitVec 4) (data : Block) :
    Indistinguishable (acceptDks len data s₁) (acceptDks len data s₂) := by
  unfold acceptDks
  split
  · exact ksInit_indistinguishable h data
  · exact (raise_sameToHost h _).indistinguishable

theorem acceptBlock_indistinguishable {s₁ s₂ : State} (h : SameToHost s₁ s₂) (dir : Dir) (len : BitVec 4)
    (data : Block) : Indistinguishable (acceptBlock dir len data s₁) (acceptBlock dir len data s₂) := by
  unfold acceptBlock
  rw [← h.kvalid]
  split
  · split
    case isTrue hk => exact blkInit_indistinguishable h hk dir data
    case isFalse => exact (raise_sameToHost h _).indistinguishable
  · exact (raise_sameToHost h _).indistinguishable

/-- The same round key goes to the same entry of both stores, behind entries that were the same. -/
theorem rotateAndStore_written_eq {s₁ s₂ : State} (hc : s₁.c = s₂.c) (hd : s₁.d = s₂.d) (hr : s₁.rnd = s₂.rnd)
    (hrk : ∀ i : Fin 16, i.val < s₁.rnd.toNat → s₁.rk[i] = s₂.rk[i]) (i : Fin 16) (hi : i.val < s₁.rnd.toNat + 1) :
    (rotateAndStore s₁).rk[i] = (rotateAndStore s₂).rk[i] := by
  simp only [rotateAndStore_rk, Fin.getElem_fin, Vector.getElem_set, ← hc, ← hd, ← hr]
  split
  case isTrue => rfl
  case isFalse hne => exact hrk i (by omega)

/-- A round of a derivation goes alike in both; after the last one the whole stores are the same. -/
theorem ksStep_indistinguishable {s₁ s₂ : State} (h : Indistinguishable s₁ s₂) (hp : s₁.phase = .ks) :
    Indistinguishable (ksStep s₁) (ksStep s₂) := by
  obtain ⟨hc, hd, hr, hrk⟩ := h.ks hp
  have hwritten := rotateAndStore_written_eq hc hd hr hrk
  have hc' : (rotateAndStore s₁).c = (rotateAndStore s₂).c := by simp [hc, hr]
  have hd' : (rotateAndStore s₁).d = (rotateAndStore s₂).d := by simp [hd, hr]
  by_cases hlast : s₁.rnd = 15
  · have hall : (rotateAndStore s₁).rk = (rotateAndStore s₂).rk :=
      Vector.ext fun i hi => hwritten ⟨i, hi⟩ (by simp [hlast]; omega)
    rw [ksStep_last s₁ hlast, ksStep_last s₂ (hr ▸ hlast)]
    exact ⟨rfl, rfl, rfl, h.inputs, fun _ => rfl, fun _ _ => hall, nofun, nofun, nofun⟩
  · rw [ksStep_inner s₁ hlast, ksStep_inner s₂ (hr ▸ hlast)]
    rw [← rnd_succ hlast] at hwritten
    exact ⟨h.phase, h.rsp, rfl, h.inputs, fun hn => absurd hp hn, fun hn => absurd hp hn,
      fun _ => ⟨hc', hd', by rw [hr], hwritten⟩, by simp [hp], by simp [hp]⟩

/-- A round of a block command reads the registers of the command and the schedule alone. -/
theorem blkRound_indistinguishable {s₁ s₂ : State} (h : Indistinguishable s₁ s₂) (hp : s₁.phase = .blk) :
    Indistinguishable (blkRound s₁) (blkRound s₂) := by
  obtain ⟨hk, hl, hr, hn, hd⟩ := h.blk hp
  have hk' : s₁.kvalid = s₂.kvalid := h.kvalid (by simp [hp])
  have hrk : s₁.rk = s₂.rk := h.rk (by simp [hp]) hk
  have hR : (blkRound s₁).r = (blkRound s₂).r := by simp [State.readRK, hl, hr, hn, hd, hrk]
  simp only [blkRound_r] at hR
  by_cases hlast : s₁.rnd = 15
  · rw [blkRound_last s₁ hlast, blkRound_last s₂ (hn ▸ hlast)]
    exact ⟨rfl, h.rsp, rfl, h.inputs, fun _ => hk', fun _ _ => hrk, nofun, nofun, fun _ => ⟨hr, hR⟩⟩
  · rw [blkRound_inner s₁ hlast, blkRound_inner s₂ (hn ▸ hlast)]
    exact ⟨h.phase, h.rsp, rfl, h.inputs, fun _ => hk', fun _ _ => hrk, by simp [hp],
      fun _ => ⟨hk, hr, hR, by rw [hn], hd⟩, by simp [hp]⟩

/-- The response is made of `L` and `R`. -/
theorem blkFinal_sameToHost {s₁ s₂ : State} (h : Indistinguishable s₁ s₂) (hp : s₁.phase = .fin) :
    SameToHost (blkFinal s₁) (blkFinal s₂) where
  idle₁ := rfl
  idle₂ := rfl
  kvalid := h.kvalid (by simp [hp])
  rk := h.rk (by simp [hp])
  rsp := by simp [h.fin hp]
  rspValid := by simp
  inputs := h.inputs

/-- Two engines that differ only in residue accept a command alike. -/
theorem exec_command_indistinguishable {s₁ s₂ : State} (h : SameToHost s₁ s₂) (cw : CommandWord) :
    ∃ t₁ t₂, exec (decodeCommand cw) s₁ = .next t₁ ∧ exec (decodeCommand cw) s₂ = .next t₂ ∧
      Indistinguishable t₁ t₂ := by
  rcases op_cases (fieldOp cw) with ho | ho | ho | ho
  · rw [decodeCommand_reserved ho]
    exact ⟨_, _, exec_reserved h.idle₁ _, exec_reserved h.idle₂ _, (raise_sameToHost h _).indistinguishable⟩
  · rw [decodeCommand_dks ho]
    exact ⟨_, _, exec_dks h.idle₁ _ _, exec_dks h.idle₂ _ _, acceptDks_indistinguishable h _ _⟩
  · rw [decodeCommand_enc ho]
    exact ⟨_, _, exec_enc h.idle₁ _ _, exec_enc h.idle₂ _ _, acceptBlock_indistinguishable h _ _ _⟩
  · rw [decodeCommand_dec ho]
    exact ⟨_, _, exec_dec h.idle₁ _ _, exec_dec h.idle₂ _ _, acceptBlock_indistinguishable h _ _ _⟩

/-- Both engines step on, and stay indistinguishable. -/
theorem step_keeps_indistinguishable {s₁ s₂ : State} (h : Indistinguishable s₁ s₂) :
    ∃ t₁ t₂, step s₁ = .next t₁ ∧ step s₂ = .next t₂ ∧ Indistinguishable t₁ t₂ := by
  have ha := advanceInputs_keeps_indistinguishable h
  have hport := port_congr h.inputs
  cases hr : s₁.port.rst with
  | true =>
    exact ⟨_, _, step_reset s₁ hr, step_reset s₂ (hport ▸ hr), (resetStep_sameToHost ha.inputs).indistinguishable⟩
  | false =>
    have hr₂ : s₂.port.rst = false := hport ▸ hr
    cases hp : s₁.phase with
    | idle =>
      have hp₂ : s₂.phase = .idle := h.phase.symm.trans hp
      cases hv : s₁.port.cmdValid with
      | false => exact ⟨_, _, step_quiet s₁ hr hp hv, step_quiet s₂ hr₂ hp₂ (hport ▸ hv), ha⟩
      | true =>
        rw [step_accept s₁ hr hp hv, step_accept s₂ hr₂ hp₂ (hport ▸ hv), ← hport]
        exact exec_command_indistinguishable (ha.sameToHost hp) _
    | ks => exact ⟨_, _, step_ks s₁ hr hp, step_ks s₂ hr₂ (h.phase ▸ hp), ksStep_indistinguishable ha hp⟩
    | blk => exact ⟨_, _, step_blk s₁ hr hp, step_blk s₂ hr₂ (h.phase ▸ hp), blkRound_indistinguishable ha hp⟩
    | fin =>
      exact ⟨_, _, step_fin s₁ hr hp, step_fin s₂ hr₂ (h.phase ▸ hp), (blkFinal_sameToHost ha hp).indistinguishable⟩

/-- Runs of the same length from indistinguishable engines end in such engines. -/
theorem run_keeps_indistinguishable (n : Nat) {s₁ s₂ : State} (h : Indistinguishable s₁ s₂) :
    ∃ t₁ t₂, run n s₁ = .next t₁ ∧ run n s₂ = .next t₂ ∧ Indistinguishable t₁ t₂ := by
  induction n generalizing s₁ s₂ with
  | zero => exact ⟨s₁, s₂, run_zero s₁, run_zero s₂, h⟩
  | succ n ih =>
    obtain ⟨u₁, u₂, hu₁, hu₂, hu⟩ := step_keeps_indistinguishable h
    rw [run_succ hu₁, run_succ hu₂]
    exact ih hu

/-- Settles O55: both steps are those of `step_keeps_indistinguishable`. -/
theorem everyStepKeepsIndistinguishable : Obligations.EveryStepKeepsIndistinguishable := by
  unfold Obligations.EveryStepKeepsIndistinguishable
  refine ⟨fun s₁ s₂ t₁ t₂ h h₁ h₂ => ?_, fun _ _ => Indistinguishable.outputs_eq,
    fun _ _ => SameToHost.indistinguishable⟩
  obtain ⟨u₁, u₂, hu₁, hu₂, hu⟩ := step_keeps_indistinguishable h
  cases hu₁.symm.trans h₁
  cases hu₂.symm.trans h₂
  exact hu

/-- Settles O50, by induction on the number of steps over `Indistinguishable`. -/
theorem theHostCannotSeeResidue : Obligations.TheHostCannotSeeResidue := by
  unfold Obligations.TheHostCannotSeeResidue
  intro n s₁ s₂ h
  obtain ⟨t₁, t₂, h₁, h₂, ht⟩ := run_keeps_indistinguishable n h.indistinguishable
  exact ⟨t₁, t₂, h₁, h₂, ht.outputs_eq⟩

/-! ### What is presented, and who responds -/

/-- A busy engine looks at `rst` alone (30_encoding.md R47). -/
theorem step_withPort_of_busy {s : State} {p q : PortIn} (hp : s.phase ≠ .idle) (hrst : p.rst = q.rst) :
    step (s.withPort p) = step (s.withPort q) := by
  cases hr : p.rst with
  | true => rw [step_reset (s.withPort p) hr, step_reset (s.withPort q) (hrst ▸ hr)]; simp
  | false =>
    have hr₂ : q.rst = false := hrst ▸ hr
    cases hph : s.phase with
    | idle => exact absurd hph hp
    | ks => rw [step_ks (s.withPort p) hr hph, step_ks (s.withPort q) hr₂ hph]; simp
    | blk => rw [step_blk (s.withPort p) hr hph, step_blk (s.withPort q) hr₂ hph]; simp
    | fin => rw [step_fin (s.withPort p) hr hph, step_fin (s.withPort q) hr₂ hph]; simp

/-- Settles O27: a busy engine's step is its phase's `Tick`, an idle one's with nothing presented is `step_quiet`. -/
theorem onlyAnIdleEngineAccepts : Obligations.OnlyAnIdleEngineAccepts := by
  unfold Obligations.OnlyAnIdleEngineAccepts
  refine ⟨fun _ _ _ => step_withPort_of_busy, fun s hp hr hv => step_quiet s hr hp hv, fun s => ?_, fun s => rfl⟩
  exact beq_iff_eq

/-- No fault has the code of `OK` (60_exceptions.md R109). -/
theorem responseCode_raise_ne_zero (s : State) (fault : Raised) : responseCode (s.raise fault).rsp ≠ 0 := by
  rw [State.raise_rsp, responseCode_word]
  cases fault <;> decide

/-- Settles O52, by what each of the eight things a step can do writes to `RSP` and `rsp_valid`. -/
theorem onlyCompletionsRespond : Obligations.OnlyCompletionsRespond := by
  unfold Obligations.OnlyCompletionsRespond
  intro s t hstep hr hen
  rcases step_cases hstep with ⟨hrst, -⟩ | ⟨-, hp, hv, -⟩ |
    ⟨-, hp, -, ⟨fault, rfl⟩ | ⟨-, -, rfl⟩ | ⟨-, -, dir, -, rfl⟩⟩ | ⟨-, hp, rfl⟩ | ⟨-, hp, rfl⟩ | ⟨-, hp, rfl⟩
  · exact absurd hrst (by simp [hr])
  · exact absurd (hen hp) (by simp [hv])
  · exact ⟨fun _ => ⟨hp, .inl ⟨hp, responseCode_raise_ne_zero _ fault⟩⟩, nofun⟩
  · exact ⟨nofun, fun _ => ⟨rfl, nofun⟩⟩
  · exact ⟨nofun, fun _ => ⟨rfl, nofun⟩⟩
  · rcases ksStep_cases s.advanceInputs with ⟨hlast, e⟩ | ⟨-, e⟩ <;> rw [e]
    · exact ⟨fun _ => ⟨rfl, .inr (.inl ⟨hp, hlast⟩)⟩, nofun⟩
    · exact ⟨nofun, fun _ => ⟨rfl, by simp [hp]⟩⟩
  · by_cases hlast : s.advanceInputs.rnd = 15
    · rw [blkRound_last _ hlast]
      exact ⟨nofun, fun _ => ⟨rfl, nofun⟩⟩
    · rw [blkRound_inner _ hlast]
      exact ⟨nofun, fun _ => ⟨rfl, by simp [hp]⟩⟩
  · exact ⟨fun _ => ⟨rfl, .inr (.inr hp)⟩, nofun⟩

end Sys2Proof.Machine
end

section
/-! Proofs of the statements about the encodings and the steps they select (spec/30_encoding.md): the fields of a command
word, the decoder and the encoder, the assembler, `Accept`, `Tick`, and which steps respond with data. -/

namespace Sys2Proof.Machine

open Sys2Proof.Laws

/-! ### A command word from its fields (30_encoding.md R38, R46) -/

/-- The number of a command word, by its three fields (R38). -/
theorem toNat_eq_fields (cw : CommandWord) :
    cw.toNat = (fieldOp cw).toNat * 2 ^ 68 + (fieldLen cw).toNat * 2 ^ 64 + (fieldData cw).toNat := by
  have hlt := cw.isLt
  simp only [fieldOp, fieldLen, fieldData, BitVec.extractLsb'_toNat, Nat.shiftRight_eq_div_pow]
  omega

/-- `LEN` begins where `DATA` ends, and `OP` where `LEN` ends. -/
theorem commandWord_fields (cw : CommandWord) : commandWord (fieldOp cw) (fieldLen cw) (fieldData cw) = cw := by
  have hhead : fieldOp cw ++ fieldLen cw = cw.extractLsb' 64 6 :=
    BitVec.extractLsb'_append_extractLsb'_eq_extractLsb' rfl
  rw [commandWord, hhead]
  exact (BitVec.extractLsb'_append_extractLsb'_eq_extractLsb' rfl).trans BitVec.extractLsb'_eq_self

/-- `OP` begins where the bits that a reserved word ignores end. -/
theorem op_append_payload (cw : CommandWord) : fieldOp cw ++ fieldPayload cw = cw :=
  (BitVec.extractLsb'_append_extractLsb'_eq_extractLsb' rfl).trans BitVec.extractLsb'_eq_self

/-! ### Decoding and encoding -/

/-- The decoder undoes the encoder, by the round trip of each instruction. -/
theorem decode_encode (i : Instr) : decode (encode i) = .ok i := by
  cases i with
  | dks len data => exact RoundTrip.dks len data
  | enc len data => exact RoundTrip.enc len data
  | dec len data => exact RoundTrip.dec len data
  | reserved payload => exact RoundTrip.reserved payload
  | ksInit data => exact RoundTrip.ksInit data
  | ksStep => exact RoundTrip.ksStep
  | blkInit dir data => exact RoundTrip.blkInit dir data
  | blkRound => exact RoundTrip.blkRound
  | blkFinal => exact RoundTrip.blkFinal

/-- No bit of a command word is dropped: `OP` selects the command, whose operands are all the other bits. -/
theorem encode_decodeCommand (cw : CommandWord) : encode (decodeCommand cw) = .cw cw := by
  rcases op_cases (fieldOp cw) with h | h | h | h
  · rw [decodeCommand_reserved h, encode, ← h, op_append_payload]
  · rw [decodeCommand_dks h, encode, ← h, commandWord_fields]
  · rw [decodeCommand_enc h, encode, ← h, commandWord_fields]
  · rw [decodeCommand_dec h, encode, ← h, commandWord_fields]

/-- Settles O17, by the round trip of each instruction one way and of each `OP` the other. -/
theorem decodeAndEncodeAgree : Obligations.DecodeAndEncodeAgree := by
  unfold Obligations.DecodeAndEncodeAgree
  exact ⟨decode_encode, fun cw => ⟨rfl, encode_decodeCommand cw⟩⟩

/-! ### The operand's bits and byte lanes (30_encoding.md R41) -/

theorem fieldData_getLsbD (cw : CommandWord) {i : Nat} (hi : i < 64) : (fieldData cw).getLsbD i = cw.getLsbD i := by
  simp [fieldData, hi]

/-- Byte `k` of a value is its bits `63-8k : 56-8k` (20_memory.md R29). -/
theorem byteLane_getLsbD (x : Block) (k : Nat) {j : Nat} (hj : j < 8) :
    (byteLane x k).getLsbD j = x.getLsbD (56 - 8 * k + j) := by
  simp [byteLane, hj]

/-- Settles O19: the fields as a sum, the `decodeCommand` lemma of each `OP`, and the two lemmas of the operand's bits. -/
theorem commandWordFields : Obligations.CommandWordFields := by
  unfold Obligations.CommandWordFields
  intro cw
  refine ⟨toNat_eq_fields cw, fun h => ⟨_, decodeCommand_reserved h⟩, decodeCommand_dks, decodeCommand_enc,
    decodeCommand_dec, fun p hp => ?_, fun k hk j hj => ?_⟩
  · rw [operandBits_eq, BitVec.getMsbD_eq_getLsbD, fieldData_getLsbD cw (by omega)]
    simp [hp]
  · rw [byteLane_getLsbD _ _ hj, fieldData_getLsbD cw (by omega)]

/-! ### The assembler (30_encoding.md R48) -/

/-- Byte `k` of the assembled `DATA` is the operand's byte `k`, zero where it has none. -/
theorem byteLane_dataOfOperand (operand : List Byte) {k : Nat} (hk : k < 8) :
    byteLane (dataOfOperand operand) k = operandByte operand k := by
  apply BitVec.eq_of_getLsbD_eq
  intro j hj
  simp only [byteLane, dataOfOperand, BitVec.getLsbD_append, BitVec.getLsbD_extractLsb', hj, decide_true, Bool.true_and]
  repeat' split
  all_goals congr 2 <;> omega

theorem operandByte_eq_ite (operand : List Byte) (k : Nat) :
    operandByte operand k = if k < operand.length then operand.getD k 0 else 0 := by
  split
  case isTrue => rfl
  case isFalse h => exact List.getD_eq_default _ _ (by omega)

theorem wellFormed_command_iff (m : Mnemonic) (len : Nat) (operand : List Byte) :
    (AsmLine.command m len operand).wellFormed = true ↔ len ≤ 15 ∧ operand.length = min len 8 := by
  simp [AsmLine.wellFormed, asmLenLegal, asmOperandSized]

theorem wellFormed_raw_iff (w : Nat) : (AsmLine.raw w).wellFormed = true ↔ w < 2 ^ 70 := by
  simp only [AsmLine.wellFormed, asmRawLegal, decide_eq_true_eq]

/-- The assembler refuses exactly the lines that are not well formed, and says so. -/
theorem assemble_illFormed {line : AsmLine} (h : ¬line.wellFormed = true) : assemble line = .error .illFormed :=
  if_neg h

theorem assemble_command {m : Mnemonic} {len : Nat} {operand : List Byte} (hl : len ≤ 15)
    (ho : operand.length = min len 8) : assemble (.command m len operand) =
      .ok (commandWord (opOfMnemonic m) (BitVec.ofNat 4 len) (dataOfOperand operand)) :=
  if_pos ((wellFormed_command_iff m len operand).2 ⟨hl, ho⟩)

theorem assemble_raw {w : Nat} (h : w < 2 ^ 70) : assemble (.raw w) = .ok (BitVec.ofNat 70 w) :=
  if_pos ((wellFormed_raw_iff w).2 h)

/-- Settles O20: a well-formed line assembles to its fields, and the others are refused. -/
theorem assembledFields : Obligations.AssembledFields := by
  unfold Obligations.AssembledFields
  refine ⟨fun m len operand hl ho => ⟨_, assemble_command hl ho, fieldOp_commandWord _ _ _, ?_, fun k hk => ?_⟩,
    fun w hw => ⟨_, assemble_raw hw, ?_⟩, fun m len operand hbad => assemble_illFormed ?_,
    fun w hw => assemble_illFormed ?_⟩
  · rw [fieldLen_commandWord, BitVec.toNat_ofNat]
    omega
  · rw [fieldData_commandWord, byteLane_dataOfOperand operand hk, operandByte_eq_ite]
  · rw [BitVec.toNat_ofNat]
    omega
  · rw [wellFormed_command_iff]
    omega
  · rw [wellFormed_raw_iff]
    omega

/-! ### The step runs what is decoded (30_encoding.md R44, R45) -/

theorem step_of_decode {s : State} {e : Encoded} {i : Instr} (hr : s.port.rst = false) (hf : s.fetch = some e)
    (hd : decode e = .ok i) : step s = exec i s.advanceInputs := by
  simp [step, hr, hf, hd]

/-- Settles O21: the one arm of `step` that is left. -/
theorem stepRunsDecodedInstruction : Obligations.StepRunsDecodedInstruction := by
  unfold Obligations.StepRunsDecodedInstruction
  exact fun _ _ _ => step_of_decode

/-- A busy engine fetches the selector of its phase. -/
theorem fetch_of_busy {s : State} (hp : s.phase ≠ .idle) : s.fetch = some (.seq s.phase.code s.port.cmd s.kvalid) := by
  unfold State.fetch
  split
  case h_1 hidle => exact absurd hidle hp
  case h_2 => rfl

/-! ### The accepted commands (30_encoding.md R44) -/

theorem acceptDks_sized (data : Block) (s : State) : acceptDks 8 data s = ksInit data s := rfl

theorem acceptDks_wrongLength {len : BitVec 4} (h : len ≠ 8) (data : Block) (s : State) :
    acceptDks len data s = s.raise .invalidLength := if_neg (mt (operandSized_iff len).1 h)

theorem acceptBlock_wrongLength {len : BitVec 4} (h : len ≠ 8) (dir : Dir) (data : Block) (s : State) :
    acceptBlock dir len data s = s.raise .invalidLength := if_neg (mt (operandSized_iff len).1 h)

theorem acceptBlock_noSchedule {s : State} (h : s.kvalid = false) (dir : Dir) (data : Block) :
    acceptBlock dir 8 data s = s.raise .noSchedule := by
  rw [acceptBlock, if_pos ((operandSized_iff 8).2 rfl), if_neg (by simp [h])]

theorem acceptBlock_scheduled {s : State} (h : s.kvalid = true) (dir : Dir) (data : Block) :
    acceptBlock dir 8 data s = blkInit dir data s := by
  rw [acceptBlock, if_pos ((operandSized_iff 8).2 rfl), if_pos h]

theorem exec_blockCommand {s : State} (hp : s.phase = .idle) (dir : Dir) (len : BitVec 4) (data : Block) :
    exec (blockCommand dir len data) s = .next (acceptBlock dir len data s) := by
  cases dir with
  | encrypt => exact exec_enc hp len data
  | decrypt => exact exec_dec hp len data

/-- Settles O37: the `Accept` of a command that does not fault is its first micro-operation. -/
theorem acceptedCommandsStart : Obligations.AcceptedCommandsStart := by
  unfold Obligations.AcceptedCommandsStart
  refine ⟨fun data s hp => ?_, fun dir data s hp hk => ?_⟩
  · rw [exec_dks hp, acceptDks_sized]
    rfl
  · rw [exec_blockCommand hp, acceptBlock_scheduled hk]
    rfl

/-! ### By the kind of command: reserved, `DKS`, a block command (30_encoding.md R39) -/

theorem op_kinds (op : BitVec 2) : op = 0b00 ∨ op = 0b01 ∨ ∃ dir, op = opOfDir dir := by
  rcases op_cases op with h | h | h | h
  · exact .inl h
  · exact .inr (.inl h)
  · exact .inr (.inr ⟨.encrypt, h⟩)
  · exact .inr (.inr ⟨.decrypt, h⟩)

theorem decodeCommand_block {cw : CommandWord} {dir : Dir} (h : fieldOp cw = opOfDir dir) :
    decodeCommand cw = blockCommand dir (fieldLen cw) (fieldData cw) := by
  cases dir with
  | encrypt => exact decodeCommand_enc h
  | decrypt => exact decodeCommand_dec h

theorem lenLegal_iff (len : BitVec 4) : lenLegal len = true ↔ len = 8 := beq_iff_eq

theorem decodeAccept_reserved {cw : CommandWord} (h : fieldOp cw = 0b00) (kvalid : Bool) :
    decodeAccept cw kvalid = .error .noMicroOperation := by
  rw [decodeAccept, decodeCommand_reserved h]

theorem decodeAccept_dks {cw : CommandWord} (h : fieldOp cw = 0b01) (kvalid : Bool) :
    decodeAccept cw kvalid =
      if fieldLen cw = 8 then .ok (.ksInit (fieldData cw)) else .error .noMicroOperation := by
  simp only [decodeAccept, decodeCommand_dks h, lenLegal_iff]

theorem decodeAccept_block {cw : CommandWord} {dir : Dir} (h : fieldOp cw = opOfDir dir) (kvalid : Bool) :
    decodeAccept cw kvalid =
      if fieldLen cw = 8 ∧ kvalid = true then .ok (.blkInit dir (fieldData cw)) else .error .noMicroOperation := by
  cases dir <;> simp only [decodeAccept, decodeCommand_block h, blockCommand, Bool.and_eq_true, lenLegal_iff]

/-- The `Accept` of a command word does what the micro-operation does that its selector selects. -/
theorem exec_of_decodeAccept {s : State} {cw : CommandWord} {i : Instr} (hp : s.phase = .idle)
    (h : decodeAccept cw s.kvalid = .ok i) : exec (decodeCommand cw) s = exec i s := by
  rcases op_kinds (fieldOp cw) with ho | ho | ⟨dir, ho⟩
  · rw [decodeAccept_reserved ho] at h
    cases h
  · rw [decodeAccept_dks ho] at h
    split at h
    case isTrue hl =>
      cases h
      rw [decodeCommand_dks ho, exec_dks hp, hl, acceptDks_sized, exec_ksInit hp]
    case isFalse => cases h
  · rw [decodeAccept_block ho] at h
    split at h
    case isTrue hsel =>
      obtain ⟨hl, hk⟩ := hsel
      cases h
      rw [decodeCommand_block ho, exec_blockCommand hp, hl, acceptBlock_scheduled hk, exec_blkInit hp hk]
    case isFalse => cases h

/-- Settles O22: idle, the step is the `Accept` of the word, which is its micro-operation; busy, the selector is what the
engine fetches. -/
theorem stepRunsSelectedMicroOperation : Obligations.StepRunsSelectedMicroOperation := by
  unfold Obligations.StepRunsSelectedMicroOperation
  intro s i hr hv hd
  by_cases hp : s.phase = .idle
  · rw [hp] at hd
    rw [step_accept s hr hp (hv hp)]
    exact exec_of_decodeAccept hp hd
  · exact step_of_decode hr (fetch_of_busy hp) hd

/-- The low bit of a block command's `OP` is its direction. -/
theorem dir_of_opOfDir (dir : Dir) : (if (opOfDir dir).getLsbD 0 then Dir.decrypt else .encrypt) = dir := by
  cases dir <;> rfl

/-- What an idle engine does with a command word: the five outcomes, in the order of the checks (30_encoding.md R44). -/
theorem exec_decodeCommand {s : State} (hp : s.phase = .idle) (cw : CommandWord) :
    exec (decodeCommand cw) s =
      if fieldOp cw = 0b00 then .next (s.raise .illegalCommand)
      else if fieldLen cw ≠ 8 then .next (s.raise .invalidLength)
      else if fieldOp cw = 0b01 then exec (.ksInit (fieldData cw)) s
      else if s.kvalid = false then .next (s.raise .noSchedule)
      else exec (.blkInit (if (fieldOp cw).getLsbD 0 then .decrypt else .encrypt) (fieldData cw)) s := by
  rcases op_kinds (fieldOp cw) with ho | ho | ⟨dir, ho⟩
  · rw [if_pos ho, decodeCommand_reserved ho, exec_reserved hp]
  · rw [if_neg (by rw [ho]; decide), if_pos ho, decodeCommand_dks ho, exec_dks hp]
    by_cases hl : fieldLen cw = 8
    · rw [if_neg (not_not.2 hl), hl, acceptDks_sized, exec_ksInit hp]
    · rw [if_pos hl, acceptDks_wrongLength hl]
  · rw [if_neg (by rw [ho]; cases dir <;> decide), if_neg (c := fieldOp cw = 0b01) (by rw [ho]; cases dir <;> decide),
      decodeCommand_block ho, exec_blockCommand hp, ho, dir_of_opOfDir]
    by_cases hl : fieldLen cw = 8
    · rw [if_neg (not_not.2 hl), hl]
      cases hk : s.kvalid with
      | false => rw [if_pos rfl, acceptBlock_noSchedule hk]
      | true => rw [if_neg nofun, acceptBlock_scheduled hk, exec_blkInit hp hk]
    · rw [if_pos hl, acceptBlock_wrongLength hl]

/-- Settles O23: the step is the `Accept` of the word presented, which has the five outcomes. -/
theorem acceptHasFiveOutcomes : Obligations.AcceptHasFiveOutcomes := by
  unfold Obligations.AcceptHasFiveOutcomes
  intro s hr hp hv
  exact (step_accept s hr hp hv).trans (exec_decodeCommand (s := s.advanceInputs) hp s.port.cmd)

/-! ### Which steps there are -/

theorem step_next (s : State) : ∃ t, step s = .next t := by
  cases hr : s.port.rst with
  | true => exact ⟨_, step_reset s hr⟩
  | false =>
    cases hp : s.phase with
    | ks => exact ⟨_, step_ks s hr hp⟩
    | blk => exact ⟨_, step_blk s hr hp⟩
    | fin => exact ⟨_, step_fin s hr hp⟩
    | idle =>
      cases hv : s.port.cmdValid with
      | false => exact ⟨_, step_quiet s hr hp hv⟩
      | true =>
        rw [step_accept s hr hp hv]
        rcases exec_command s.port.cmd s.advanceInputs hp with ⟨-, e⟩ | ⟨-, e⟩ | ⟨-, e⟩ | ⟨-, e⟩ <;> exact ⟨_, e⟩

/-- Settles O28, by the kinds of step: `Reset`, `Tick`, `Accept`, and none enabled. -/
theorem everyStepContinues : Obligations.EveryStepContinues := by
  unfold Obligations.EveryStepContinues
  exact step_next

/-- The meaning of every instruction is guarded by the states in which its step exists. -/
theorem exec_eq_whenEnabled (i : Instr) (s : State) : ∃ t, exec i s = whenEnabled (enabled i s) t := by
  cases i <;> exact ⟨_, rfl⟩

/-- Settles O29: `exec` is guarded by `enabled`. -/
theorem execContinuesExactlyWhenEnabled : Obligations.ExecContinuesExactlyWhenEnabled := by
  unfold Obligations.ExecContinuesExactlyWhenEnabled
  intro i s
  obtain ⟨t, ht⟩ := exec_eq_whenEnabled i s
  rw [ht]
  refine ⟨fun h => ⟨t, ?_⟩, fun h => ?_⟩
  · rw [h, whenEnabled_true]
  · rw [h, whenEnabled_false]

/-! ### Ticks (30_encoding.md R45) -/

theorem ticksLeft_eq_zero_iff (s : State) : ticksLeft s = 0 ↔ s.phase = .idle := by
  have hlt := s.rnd.isLt
  cases hp : s.phase <;> simp [ticksLeft, hp] <;> omega

/-- A round that is not the last counts `RND` on; the last leads to `IDLE`, which has no `Tick` left. -/
theorem ticksLeft_ksStep {s : State} (hp : s.phase = .ks) : ticksLeft s = ticksLeft (ksStep s) + 1 := by
  rcases ksStep_cases s with ⟨hlast, e⟩ | ⟨hinner, e⟩ <;> rw [e]
  · simp [ticksLeft, hp, hlast]
  · have hlt := s.rnd.isLt
    simp only [ticksLeft, hp, rnd_succ hinner]
    omega

/-- A round that is not the last counts `RND` on; the last leads to `FIN`, which has one `Tick` left. -/
theorem ticksLeft_blkRound {s : State} (hp : s.phase = .blk) : ticksLeft s = ticksLeft (blkRound s) + 1 := by
  by_cases hlast : s.rnd = 15
  · rw [blkRound_last s hlast]
    simp [ticksLeft, hp, hlast]
  · rw [blkRound_inner s hlast]
    have hlt := s.rnd.isLt
    simp only [ticksLeft, hp, rnd_succ hlast]
    omega

theorem ticksLeft_blkFinal {s : State} (hp : s.phase = .fin) : ticksLeft s = ticksLeft (blkFinal s) + 1 := by
  simp [ticksLeft, hp]

/-- A `Tick` uses up one of the `Tick`s left. -/
theorem step_of_busy {s : State} (hr : s.port.rst = false) (hp : s.phase ≠ .idle) :
    ∃ t, step s = .next t ∧ t.inputs = s.inputs.tail ∧ ticksLeft s = ticksLeft t + 1 := by
  cases hph : s.phase with
  | idle => exact absurd hph hp
  | ks => exact ⟨_, step_ks s hr hph, ksStep_inputs _, ticksLeft_ksStep (s := s.advanceInputs) hph⟩
  | blk => exact ⟨_, step_blk s hr hph, blkRound_inputs _, ticksLeft_blkRound (s := s.advanceInputs) hph⟩
  | fin => exact ⟨_, step_fin s hr hph, blkFinal_inputs _, ticksLeft_blkFinal (s := s.advanceInputs) hph⟩

/-- The host asserts no `rst` in the coming step, nor in those after it. -/
theorem noReset_succ {n : Nat} {s t : State} (h : noReset (n + 1) s) (ht : t.inputs = s.inputs.tail) :
    s.port.rst = false ∧ noReset n t := by
  unfold noReset at h ⊢
  rw [ht, State.port]
  cases hs : s.inputs with
  | nil => simp [PortIn.quiet]
  | cons p ps =>
    rw [hs, List.take_succ_cons] at h
    exact ⟨h p List.mem_cons_self, fun q hq => h q (List.mem_cons_of_mem p hq)⟩

/-- Without a reset an engine with `n` `Tick`s left is idle after `n` steps and busy before. -/
theorem run_ticksLeft {n : Nat} {s : State} (hn : ticksLeft s = n) (hnr : noReset n s) :
    (∃ t, run n s = .next t ∧ t.phase = .idle) ∧ ∀ j < n, ∃ t, run j s = .next t ∧ t.phase ≠ .idle := by
  induction n generalizing s with
  | zero => exact ⟨⟨s, run_zero s, (ticksLeft_eq_zero_iff s).1 hn⟩, fun j hj => absurd hj (Nat.not_lt_zero j)⟩
  | succ n ih =>
    have hp : s.phase ≠ .idle := fun h => by simp [(ticksLeft_eq_zero_iff s).2 h] at hn
    have hr : s.port.rst = false := (noReset_succ (t := s.advanceInputs) hnr rfl).1
    obtain ⟨u, hu, hin, hticks⟩ := step_of_busy hr hp
    obtain ⟨hend, hbusy⟩ := ih (s := u) (by omega) (noReset_succ hnr hin).2
    refine ⟨by rwa [run_succ hu], fun j hj => ?_⟩
    cases j with
    | zero => exact ⟨s, run_zero s, hp⟩
    | succ j =>
      rw [run_succ hu]
      exact hbusy j (by omega)

/-- Settles O24: the `Tick` of each phase, then induction on the number of `Tick`s left. -/
theorem tickRunsToIdle : Obligations.TickRunsToIdle := by
  unfold Obligations.TickRunsToIdle
  refine ⟨fun s hr => ⟨fun hp => ?_, fun hp => ?_, fun hp => ?_⟩, fun s _ hnr => run_ticksLeft rfl hnr,
    fun s hrnd => ⟨fun hp => ?_, fun hp => ?_⟩⟩
  · rw [step_ks s hr hp, exec_ksStep (s := s.advanceInputs) hp]
  · rw [step_blk s hr hp, exec_blkRound (s := s.advanceInputs) hp]
  · rw [step_fin s hr hp, exec_blkFinal (s := s.advanceInputs) hp]
  · simp [ticksLeft, hp, hrnd]
  · simp [ticksLeft, hp, hrnd]

/-! ### Which steps respond with data (30_encoding.md R42; 43_feistel_cipher.md R103) -/

/-- What a step leaves in `RSP`: in `FIN` the result block; or no data; or what `RSP` held, with `rsp_valid` set only
where the engine is idle and presented nothing. -/
theorem step_response {s t : State} (h : step s = .next t) :
    (s.phase = .fin ∧ responseData t.rsp = finalBlock s.l s.r) ∨
    (responseData t.rsp = 0 ∧ (s.port.rst = false → s.phase ≠ .fin)) ∨
    (t.rsp = s.rsp ∧ (t.rspValid = true → s.phase = .idle ∧ s.port.cmdValid = false)) := by
  rcases step_cases h with ⟨hr, rfl⟩ | ⟨-, hp, hv, rfl⟩ |
    ⟨-, hp, -, ⟨fault, rfl⟩ | ⟨-, -, rfl⟩ | ⟨-, -, dir, -, rfl⟩⟩ | ⟨-, hp, rfl⟩ | ⟨-, -, rfl⟩ | ⟨-, hp, rfl⟩
  · exact .inr (.inl ⟨rfl, by simp [hr]⟩)
  · exact .inr (.inr ⟨rfl, fun _ => ⟨hp, hv⟩⟩)
  · exact .inr (.inl ⟨responseData_word _ 0, by simp [hp]⟩)
  · exact .inr (.inr ⟨rfl, nofun⟩)
  · exact .inr (.inr ⟨rfl, nofun⟩)
  · rcases ksStep_cases s.advanceInputs with ⟨-, e⟩ | ⟨-, e⟩ <;> rw [e]
    · exact .inr (.inl ⟨responseData_word .ok 0, by simp [hp]⟩)
    · exact .inr (.inr ⟨rfl, nofun⟩)
  · exact .inr (.inr ⟨blkRound_rsp _, by simp⟩)
  · exact .inl ⟨hp, responseData_word .ok _⟩

/-- Settles O53, by what a step leaves in `RSP`. -/
theorem onlyTheFinalStepRespondsWithData : Obligations.OnlyTheFinalStepRespondsWithData := by
  unfold Obligations.OnlyTheFinalStepRespondsWithData
  refine ⟨fun s t h hr hen hv => ?_, fun s t h hne => ?_⟩
  · rcases step_response h with ⟨hp, e⟩ | ⟨e, hp⟩ | ⟨-, hq⟩
    · rw [if_pos hp]
      exact e
    · rw [if_neg (hp hr)]
      exact e
    · obtain ⟨hp, hquiet⟩ := hq hv
      exact absurd (hen hp) (by simp [hquiet])
  · rcases step_response h with hfin | ⟨e, -⟩ | ⟨e, -⟩
    · exact .inr hfin
    · exact .inl e
    · exact absurd e hne

end Sys2Proof.Machine
end

section
/-! Proofs of the statements about the tables and the bit primitives (spec/40_bitvector_permutation.md): `permute`, and
`fromBytes` and `toBytes`. -/

namespace Sys2Proof.Machine

/-! ### Permutations (40_bitvector_permutation.md R52) -/

/-- Inside the table, `permute_getMsbD` without its bound: both readings of an entry agree there. -/
theorem permute_getMsbD_getD {n m : Nat} (t : List Nat) (x : BitVec n) (ht : t.length = m) {i : Nat} (hi : i < m) :
    (permute m t x).getMsbD i = x.getMsbD (t.getD i 0) := by
  have hi' : i < t.length := ht ▸ hi
  rw [permute_getMsbD t x ht, dif_pos hi', List.getD_eq_getElem _ _ hi']

/-- A table undone by another, entry by entry, is undone by it as a permutation. -/
theorem permute_permute_of_undone {n : Nat} {t u : List Nat} (x : BitVec n) (ht : t.length = n) (hu : u.length = n)
    (hundo : ∀ i < n, u.getD i 0 < n ∧ t.getD (u.getD i 0) 0 = i) : permute n u (permute n t x) = x := by
  apply BitVec.eq_of_getMsbD_eq
  intro i hi
  obtain ⟨hlt, heq⟩ := hundo i hi
  calc (permute n u (permute n t x)).getMsbD i
    _ = (permute n t x).getMsbD (u.getD i 0) := permute_getMsbD_getD u _ hu hi
    _ = x.getMsbD (t.getD (u.getD i 0) 0) := permute_getMsbD_getD t x ht hlt
    _ = x.getMsbD i := by rw [heq]

/-- Settles O2, by reading `permute` position by position; the examples are evaluated. -/
theorem permuteSelectsPositions : Obligations.PermuteSelectsPositions := by
  unfold Obligations.PermuteSelectsPositions
  exact ⟨fun _ _ t x ht _ hi => permute_getMsbD_getD t x ht hi,
    fun _ _ _ x ht hu hundo => permute_permute_of_undone x ht hu hundo, by decide, by decide⟩

/-! ### Bytes (40_bitvector_permutation.md R50, R51) -/

/-- The eight bytes stand where the assembler puts an operand of eight bytes (30_encoding.md R41). -/
theorem byteLane_fromBytes (b : Vector Byte 8) {k : Nat} (hk : k < 8) : byteLane (fromBytes b) k = b[k] := by
  have hdata : fromBytes b = dataOfOperand b.toList := by simp [fromBytes, dataOfOperand, operandByte]
  rw [hdata, byteLane_dataOfOperand _ hk]
  simp [operandByte, hk]

@[simp] theorem toBytes_getElem (x : Block) {k : Nat} (hk : k < 8) : (toBytes x)[k] = byteLane x k :=
  Vector.getElem_ofFn hk

/-- Positions count from the most significant bit, so position `j` of a byte is its bit `7 - j` (00_scope.md R5). -/
theorem byteLane_getLsbD_position (x : Block) {k j : Nat} (hk : k < 8) (hj : j < 8) :
    (byteLane x k).getLsbD (7 - j) = x.getMsbD (8 * k + j) := by
  rw [byteLane_getLsbD x k (by omega), BitVec.getMsbD_eq_getLsbD, decide_eq_true (by omega), Bool.true_and]
  congr 1
  omega

theorem toBytes_fromBytes (b : Vector Byte 8) : toBytes (fromBytes b) = b := by
  apply Vector.ext
  intro k hk
  rw [toBytes_getElem _ hk, byteLane_fromBytes b hk]

/-- Settles O3, by the byte lanes of `fromBytes` and `toBytes`. -/
theorem bytesRoundTrip : Obligations.BytesRoundTrip := by
  unfold Obligations.BytesRoundTrip
  refine ⟨fun b k j hj => ?_, fun x k j hj => ?_, toBytes_fromBytes, operandBits_eq⟩
  · rw [← byteLane_getLsbD_position _ k.isLt hj, byteLane_fromBytes b k.isLt, Fin.getElem_fin]
  · rw [Fin.getElem_fin, toBytes_getElem x k.isLt, byteLane_getLsbD_position x k.isLt hj]

/-! ### The tables (40_bitvector_permutation.md R54, R55) -/

/-- Settles O1: each table is a literal, so its shape is evaluated. -/
theorem tablesAreWellFormed : Obligations.TablesAreWellFormed := by
  unfold Obligations.TablesAreWellFormed
  refine ⟨?PC1, ?PC2, ?E, ?P, ?IP, ?FP, ?SBOX, ?ROT⟩ <;> decide

end Sys2Proof.Machine
end

section
/-! Proofs of the statements about the key schedule (spec/41_key_schedule.md): the rotation, the pure function `KS` and the
generator the hardware does not use, the two micro-operations, and `DKS` as they carry it out. -/

namespace Sys2Proof.Machine

/-! ### The rotation (41_key_schedule.md R60) -/

@[simp] theorem rotl28_full (h : KeyHalf) : rotl28 h 28 = h := by
  simp [rotl28, BitVec.shiftLeft_eq_zero]

/-- Below the width, the rotation is the library's. -/
theorem rotl28_eq_rotateLeft (h : KeyHalf) {s : Nat} (hs : s < 28) : rotl28 h s = h.rotateLeft s := by
  rw [BitVec.rotateLeft_def, Nat.mod_eq_of_lt hs, rotl28]

theorem rotl28_getMsbD (h : KeyHalf) {s p : Nat} (hs : s ≤ 28) (hp : p < 28) :
    (rotl28 h s).getMsbD p = h.getMsbD ((p + s) % 28) := by
  rcases hs.lt_or_eq with hlt | rfl
  · rw [rotl28_eq_rotateLeft h hlt, BitVec.getMsbD_rotateLeft, decide_eq_true hp, Bool.true_and, Nat.add_comm]
  · rw [rotl28_full, Nat.add_mod_right, Nat.mod_eq_of_lt hp]

/-- The shifted part and the part that comes round have no bit in common, so their disjunction is their sum. -/
theorem rotl28_toNat (h : KeyHalf) {s : Nat} (hs : s < 28) :
    (rotl28 h s).toNat = h.toNat * 2 ^ s % 2 ^ 28 + h.toNat / 2 ^ (28 - s) := by
  have hwidth : 2 ^ (28 - s) * 2 ^ s = 2 ^ 28 := by rw [← Nat.pow_add, Nat.sub_add_cancel hs.le]
  have hround : h.toNat / 2 ^ (28 - s) < 2 ^ s := Nat.div_lt_of_lt_mul (hwidth ▸ h.isLt)
  have hshifted : h.toNat * 2 ^ s % 2 ^ 28 = 2 ^ s * (h.toNat % 2 ^ (28 - s)) := by
    rw [← hwidth, Nat.mul_mod_mul_right, Nat.mul_comm]
  rw [hshifted, Nat.two_pow_add_eq_or_of_lt hround, ← hshifted, rotl28, BitVec.toNat_or, BitVec.toNat_shiftLeft,
    BitVec.toNat_ushiftRight, Nat.shiftLeft_eq, Nat.shiftRight_eq_div_pow]

/-- Rotations add up, as far as one turn. -/
theorem rotl28_rotl28 (h : KeyHalf) {a b : Nat} (hab : a + b ≤ 28) : rotl28 (rotl28 h a) b = rotl28 h (a + b) := by
  apply BitVec.eq_of_getMsbD_eq
  intro p hp
  rw [rotl28_getMsbD _ (by omega) hp, rotl28_getMsbD _ (by omega) (Nat.mod_lt _ (by omega)), rotl28_getMsbD _ hab hp,
    Nat.mod_add_mod, Nat.add_assoc, Nat.add_comm b a]

/-- A rotation to the right is the rest of the turn to the left. -/
theorem rotr28_eq_rotl28 (h : KeyHalf) {s : Nat} (hs : s ≤ 28) : rotr28 h s = rotl28 h (28 - s) := by
  rw [rotr28, rotl28, Nat.sub_sub_self hs, BitVec.or_comm]

@[simp] theorem rotr28_zero (h : KeyHalf) : rotr28 h 0 = h := by
  rw [rotr28_eq_rotl28 h (Nat.zero_le 28), rotl28_full]

theorem rotr28_rotl28 (h : KeyHalf) {s : Nat} (hs : s ≤ 28) : rotr28 (rotl28 h s) s = h := by
  rw [rotr28_eq_rotl28 _ hs, rotl28_rotl28 h (by omega), Nat.add_sub_cancel' hs, rotl28_full]

/-- Settles O5, by positions and as a number; the examples are evaluated. -/
theorem rotationIsCyclic : Obligations.RotationIsCyclic := by
  unfold Obligations.RotationIsCyclic
  exact ⟨fun h _ hs => ⟨fun _ hp => rotl28_getMsbD h hs.le hp, rotl28_toNat h hs⟩,
    fun h => (rotl28_rotl28 h (by decide : 1 + 1 ≤ 28)).symm, rotl28_full, by decide, by decide, by decide, by decide⟩

/-! ### The rotation counts (41_key_schedule.md R59) -/

/-- Settles O6: the table is a literal, so its counts and totals are evaluated. -/
theorem rotationCounts : Obligations.RotationCounts := by
  unfold Obligations.RotationCounts
  exact ⟨rfl, fun _ _ => rfl, by decide, by decide⟩

/-- A round rotates by one or two, never by more than a turn. Past the table's end `shiftAmount` reads it as 0. -/
theorem shiftAmount_le (i : Nat) : shiftAmount i ≤ 28 := by
  by_cases hi : i < 16
  · have hshift : ∀ i < 16, shiftAmount i ≤ 28 := by decide
    exact hshift i hi
  · rw [shiftAmount, List.getD_eq_default _ _ (Nat.le_of_not_lt hi)]
    decide

theorem totalShift_succ (i : Nat) : totalShift (i + 1) = totalShift i + shiftAmount (i + 1) := by
  simp [totalShift, List.range_succ, Nat.add_assoc]

theorem totalShift_le {i : Nat} (hi : i < 16) : totalShift i ≤ 28 := by
  have htotal : ∀ i < 16, totalShift i ≤ 28 := by decide
  exact htotal i hi

/-! ### The halves, round by round (41_key_schedule.md R62, R65) -/

theorem keyHalves_zero (key : Block) :
    keyHalves key 0 = (leftKeyHalf (permutedKey key), rightKeyHalf (permutedKey key)) := rfl

theorem keyHalves_succ (key : Block) (i : Nat) : keyHalves key (i + 1) =
    (rotl28 (keyHalves key i).1 (shiftAmount i), rotl28 (keyHalves key i).2 (shiftAmount i)) := rfl

/-- The halves in closed form: those of the permuted key, rotated by the running total. -/
theorem keyHalves_eq_totalShift (key : Block) {i : Nat} (hi : i < 16) : keyHalves key (i + 1) =
    (rotl28 (keyHalves key 0).1 (totalShift i), rotl28 (keyHalves key 0).2 (totalShift i)) := by
  induction i with
  | zero => rfl
  | succ i ih =>
    have hturn : totalShift i + shiftAmount (i + 1) ≤ 28 := totalShift_succ i ▸ totalShift_le hi
    rw [keyHalves_succ key (i + 1), ih (by omega), totalShift_succ]
    exact Prod.ext (rotl28_rotl28 _ hturn) (rotl28_rotl28 _ hturn)

/-- The sixteen rotations make one turn. -/
theorem keyHalves_sixteen (key : Block) : keyHalves key 16 = keyHalves key 0 := by
  rw [keyHalves_eq_totalShift key (by decide : 15 < 16), show totalShift 15 = 28 by decide, rotl28_full, rotl28_full]

/-- Both halves rotated to the right by `n`. -/
def rotateBack (n : Nat) (cd : KeyHalf × KeyHalf) : KeyHalf × KeyHalf := (rotr28 cd.1 n, rotr28 cd.2 n)

/-- Rotating back by a round's amount undoes the round. -/
theorem rotateBack_keyHalves (key : Block) (i : Nat) :
    rotateBack (shiftAmount i) (keyHalves key (i + 1)) = keyHalves key i :=
  Prod.ext (rotr28_rotl28 _ (shiftAmount_le i)) (rotr28_rotl28 _ (shiftAmount_le i))

/-- Going back `n` rounds from the sixteenth. -/
theorem foldl_rotateBack (key : Block) {n : Nat} (hn : n ≤ 16) :
    (List.range n).foldl (fun cd j => rotateBack (shiftAmount (15 - j)) cd) (keyHalves key 16) =
      keyHalves key (16 - n) := by
  induction n with
  | zero => rfl
  | succ n ih =>
    rw [List.range_succ, List.foldl_append, ih (by omega), show 16 - n = 15 - n + 1 by omega,
      show 16 - (n + 1) = 15 - n by omega]
    exact rotateBack_keyHalves key (15 - n)

/-- Settles O7: the total of the rotations is one turn, and each is undone by the one to the right. -/
theorem halvesReturnAfterSixteenRounds : Obligations.HalvesReturnAfterSixteenRounds := by
  unfold Obligations.HalvesReturnAfterSixteenRounds
  exact ⟨by decide, keyHalves_sixteen, fun key => foldl_rotateBack key le_rfl⟩

/-! ### The schedule (41_key_schedule.md R62, R63) -/

theorem keySchedule_getElem (key : Block) (i : Fin 16) : (keySchedule key)[i] = roundKey key i.val :=
  Vector.getElem_ofFn i.isLt

/-- Settles O8: the recursion of the halves and its closed form. -/
theorem keyScheduleIsCumulative : Obligations.KeyScheduleIsCumulative := by
  unfold Obligations.KeyScheduleIsCumulative
  refine fun key => ⟨?start, fun i _ => keyHalves_succ key i, fun i => keySchedule_getElem key i, fun i => ?closed⟩
  case start => rw [keyHalves_zero, permutedKey, operandBits_eq]
  case closed =>
    rw [keySchedule_getElem, roundKey, keyHalves_eq_totalShift key i.isLt]
    rfl

/-- Position `p` of the permuted key is the key's position `PC1[p]` (41_key_schedule.md R57). -/
theorem permutedKey_getMsbD (key : Block) {p : Nat} (hp : p < 56) :
    (permutedKey key).getMsbD p = key.getMsbD (tablePC1.getD p 0) := by
  rw [permutedKey, operandBits_eq]
  exact permute_getMsbD_getD tablePC1 key rfl hp

/-- PC1 drops the last position of every byte. -/
theorem tablePC1_drops_parity : ∀ p < 56, tablePC1.getD p 0 < 64 ∧ tablePC1.getD p 0 % 8 ≠ 7 := by decide

theorem permutedKey_congr {k₁ k₂ : Block} (h : ∀ p < 64, p % 8 ≠ 7 → k₁.getMsbD p = k₂.getMsbD p) :
    permutedKey k₁ = permutedKey k₂ := by
  apply BitVec.eq_of_getMsbD_eq
  intro p hp
  obtain ⟨hlt, hkept⟩ := tablePC1_drops_parity p hp
  rw [permutedKey_getMsbD k₁ hp, permutedKey_getMsbD k₂ hp, h _ hlt hkept]

theorem keyHalves_congr {k₁ k₂ : Block} (h : permutedKey k₁ = permutedKey k₂) (n : Nat) :
    keyHalves k₁ n = keyHalves k₂ n := by
  induction n with
  | zero => rw [keyHalves_zero, keyHalves_zero, h]
  | succ n ih => rw [keyHalves_succ, keyHalves_succ, ih]

/-- The schedule reads the key through PC1 only. -/
theorem keySchedule_congr {k₁ k₂ : Block} (h : permutedKey k₁ = permutedKey k₂) : keySchedule k₁ = keySchedule k₂ := by
  simp only [keySchedule, roundKey, keyHalves_congr h]

/-- Settles O9: PC1 selects none of the positions in which the keys differ. -/
theorem parityBitsAreIgnored : Obligations.ParityBitsAreIgnored := by
  unfold Obligations.ParityBitsAreIgnored
  intro k₁ k₂ h
  have hpermuted := permutedKey_congr h
  exact ⟨hpermuted, keySchedule_congr hpermuted⟩

/-! ### The generator that the hardware does not use (41_key_schedule.md R66) -/

theorem reverseHalves_succ (key : Block) (j : Nat) :
    reverseHalves key (j + 1) = rotateBack (rshiftAmount j) (reverseHalves key j) := rfl

/-- Its round 0 does not rotate, and the halves it starts from are also those after round 15; from there each round undoes
one of the schedule's. -/
theorem reverseHalves_eq_keyHalves (key : Block) {j : Nat} (hj : j < 16) :
    reverseHalves key (j + 1) = keyHalves key (16 - j) := by
  induction j with
  | zero =>
    calc reverseHalves key 1
      _ = keyHalves key 0 := Prod.ext (rotr28_zero _) (rotr28_zero _)
      _ = keyHalves key 16 := (keyHalves_sixteen key).symm
  | succ j ih =>
    have hshift : rshiftAmount (j + 1) = shiftAmount (15 - j) := by
      rw [rshiftAmount, if_neg (Nat.succ_ne_zero j), show 16 - (j + 1) = 15 - j by omega]
    rw [reverseHalves_succ, ih (by omega), hshift, show 16 - j = 15 - j + 1 by omega, rotateBack_keyHalves,
      show 16 - (j + 1) = 15 - j by omega]

/-- Settles O10, by the halves of both generators. -/
theorem reverseGeneratorReversesTheKeys : Obligations.ReverseGeneratorReversesTheKeys := by
  unfold Obligations.ReverseGeneratorReversesTheKeys
  refine ⟨by decide, fun key j hj => ?_⟩
  rw [reverseRoundKey, reverseHalves_eq_keyHalves key hj, roundKey, show 15 - j + 1 = 16 - j by omega]

/-! ### The micro-operations (41_key_schedule.md R68, R69) -/

/-- Settles O30: the halves that `KS_INIT` loads, read through PC1. -/
theorem ksInitLoadsThePermutedKey : Obligations.KsInitLoadsThePermutedKey := by
  unfold Obligations.KsInitLoadsThePermutedKey
  refine fun data s hp => ⟨_, _, exec_ksInit hp data, fun p hlt => ⟨?left, ?right⟩⟩
  case left => rw [leftKeyHalf_getMsbD _ p hlt, permutedKey_getMsbD data (by omega)]
  case right => rw [rightKeyHalf_getMsbD _ p hlt, permutedKey_getMsbD data (by omega)]

theorem compress_getMsbD (c d : KeyHalf) {p : Nat} (hp : p < 48) :
    (compress c d).getMsbD p = (c ++ d).getMsbD (tablePC2.getD p 0) :=
  permute_getMsbD_getD tablePC2 (c ++ d) rfl hp

/-- Settles O31: both branches of `KS_STEP` rotate and store alike. -/
theorem ksStepRotatesAndStores : Obligations.KsStepRotatesAndStores := by
  unfold Obligations.KsStepRotatesAndStores
  intro s hp
  refine ⟨(rotateAndStore s).c, (rotateAndStore s).d, compress (rotateAndStore s).c (rotateAndStore s).d, ?state,
    fun p hlt => rotl28_getMsbD s.c (shiftAmount_le _) hlt, fun p hlt => rotl28_getMsbD s.d (shiftAmount_le _) hlt,
    fun p hlt => compress_getMsbD _ _ hlt⟩
  rw [exec_ksStep hp]
  rcases ksStep_cases s with ⟨hlast, e⟩ | ⟨hinner, e⟩
  · rw [e, if_pos hlast]
    rfl
  · rw [e, if_neg hinner]
    rfl

/-! ### A run of `DKS` (41_key_schedule.md R67, R70) -/

/-- A `DKS` of `key` is in its rounds: `RND` of them are done, and nothing is answered or valid yet. -/
structure MidDerivation (key : Block) (s : State) : Prop where
  phase : s.phase = .ks
  kvalid : s.kvalid = false
  rspValid : s.rspValid = false
  derived : Derived key s.rnd.toNat s

/-- `s` when the derivation of `key` has completed, `n` steps on. -/
def State.afterDerivation (key : Block) (n : Nat) (s : State) : State :=
  { s with
    rk := keySchedule key
    kvalid := true
    c := leftKeyHalf (permutedKey key)
    d := rightKeyHalf (permutedKey key)
    rnd := 0
    phase := .idle
    rsp := responseWord .ok 0
    rspValid := true
    inputs := s.inputs.drop n }

theorem ksInit_midDerivation (key : Block) (s : State) : MidDerivation key (ksInit key s) :=
  ⟨rfl, rfl, rfl, derived_ksInit key s⟩

theorem advanceInputs_keeps_midDerivation {key : Block} {s : State} (h : MidDerivation key s) :
    MidDerivation key s.advanceInputs :=
  ⟨h.phase, h.kvalid, h.rspValid, h.derived⟩

/-- A round that is not the last leaves the next one to do. -/
theorem ksStep_keeps_midDerivation {key : Block} {s : State} (h : MidDerivation key s) (hr : s.rnd ≠ 15) :
    MidDerivation key (ksStep s) := by
  have hnext := derived_rotateAndStore h.derived
  rw [← rnd_succ hr] at hnext
  rw [ksStep_inner s hr]
  exact ⟨h.phase, h.kvalid, rfl, hnext⟩

/-- The last round completes the derivation: the store is the schedule, and the halves have made their turn. -/
theorem ksStep_completes_derivation {key : Block} {s : State} (h : MidDerivation key s) (hr : s.rnd = 15) :
    ksStep s = s.afterDerivation key 0 := by
  have hdone := derived_rotateAndStore h.derived
  rw [hr] at hdone
  obtain ⟨hc, hd⟩ := Prod.mk.inj (hdone.1.trans (keyHalves_sixteen key))
  rw [ksStep_last s hr, rk_eq_keySchedule_of_derived hdone, hc, hd]
  rfl

/-- The derivation that a step advances is the one that will have completed. -/
theorem afterDerivation_ksStep {key : Block} {s : State} (hr : s.rnd ≠ 15) (n : Nat) :
    (ksStep s.advanceInputs).afterDerivation key n = s.afterDerivation key (n + 1) := by
  rw [ksStep_inner s.advanceInputs hr]
  simp [State.afterDerivation]

/-- Without a reset the derivation completes in the rounds left, and is under way until then. -/
theorem run_derivation {key : Block} {n : Nat} {s : State} (h : MidDerivation key s) (hn : s.rnd.toNat + n = 16)
    (hnr : noReset n s) :
    run n s = .next (s.afterDerivation key n) ∧ ∀ j < n, ∃ t, run j s = .next t ∧ MidDerivation key t := by
  induction n generalizing s with
  | zero => exact absurd hn (by have := s.rnd.isLt; omega)
  | succ n ih =>
    have hin : (ksStep s.advanceInputs).inputs = s.inputs.tail := ksStep_inputs _
    obtain ⟨hr, hnr'⟩ := noReset_succ hnr hin
    have hstep := step_ks s hr h.phase
    have hadv := advanceInputs_keeps_midDerivation h
    by_cases hlast : s.rnd = 15
    · have hrnd : s.rnd.toNat = 15 := by rw [hlast]; rfl
      obtain rfl : n = 0 := by omega
      refine ⟨?_, fun j hj => ⟨s, ?_, h⟩⟩
      · rw [run_succ hstep, run_zero, ksStep_completes_derivation hadv hlast]
        simp [State.afterDerivation]
      · rw [Nat.lt_one_iff.1 hj, run_zero]
    · have hrnd : (ksStep s.advanceInputs).rnd.toNat = s.rnd.toNat + 1 := by
        rw [ksStep_inner s.advanceInputs hlast]
        exact rnd_succ hlast
      obtain ⟨hend, hmid⟩ := ih (ksStep_keeps_midDerivation hadv hlast) (by omega) hnr'
      refine ⟨by rw [run_succ hstep, hend, afterDerivation_ksStep hlast], fun j hj => ?_⟩
      cases j with
      | zero => exact ⟨s, run_zero s, h⟩
      | succ j =>
        rw [run_succ hstep]
        exact hmid j (by omega)

/-- The derivation that starts in an idle engine leaves what it does not name as it was there. -/
theorem afterDerivation_ksInit {s : State} (hp : s.phase = .idle) (key : Block) (n : Nat) :
    (ksInit key s).afterDerivation key n = { s with
      rk := keySchedule key, kvalid := true, c := leftKeyHalf (permutedKey key), d := rightKeyHalf (permutedKey key),
      rnd := 0, rsp := responseWord .ok 0, rspValid := true, inputs := s.inputs.drop n } := by
  rw [hp]
  rfl

theorem run_ksInit (key : Block) {s : State} (hnr : noReset 16 s) :
    run 16 (ksInit key s) = .next ((ksInit key s).afterDerivation key 16) ∧
      ∀ j < 16, ∃ t, run j (ksInit key s) = .next t ∧ MidDerivation key t :=
  run_derivation (ksInit_midDerivation key s) rfl hnr

/-- Settles O35: the fault, or the sixteen rounds after `KS_INIT`; the corner cases and the example are evaluated. -/
theorem dksDerivesTheSchedule : Obligations.DksDerivesTheSchedule := by
  unfold Obligations.DksDerivesTheSchedule
  refine ⟨fun len data s hp hnr => ⟨fun hlen => ?fault, fun hlen => ?derives⟩, by decide +kernel, by decide +kernel,
    by decide +kernel⟩
  case fault =>
    rw [exec_dks hp, acceptDks_wrongLength hlen]
    rfl
  case derives =>
    subst hlen
    refine ⟨ksInit data s, by rw [exec_dks hp, acceptDks_sized], ?_⟩
    rw [(run_ksInit data hnr).1, afterDerivation_ksInit hp]
    rfl

theorem decodeCommand_commandWord_dks (len : BitVec 4) (data : Block) :
    decodeCommand (commandWord 0b01 len data) = .dks len data := by
  rw [decodeCommand_dks (Laws.fieldOp_commandWord _ _ _), Laws.fieldLen_commandWord, Laws.fieldData_commandWord]

theorem responseWord_ok_zero : responseWord .ok 0 = 0 := by decide

/-- The step that accepts a `DKS` of eight bytes is its `KS_INIT`. -/
theorem step_accepts_dks {s : State} {data : Block} (hp : s.phase = .idle)
    (hport : s.port = PortIn.present (commandWord 0b01 8 data)) : step s = .next (ksInit data s.advanceInputs) := by
  have hcmd : s.port.cmd = commandWord 0b01 8 data := by rw [hport]; rfl
  rw [step_accept s (by rw [hport]; rfl) hp (by rw [hport]; rfl), hcmd, decodeCommand_commandWord_dks,
    exec_dks (s := s.advanceInputs) hp, acceptDks_sized]

/-- Settles O44: `Accept` is `KS_INIT`, and the sixteen rounds follow. -/
theorem dksRunOfSeventeenSteps : Obligations.DksRunOfSeventeenSteps := by
  unfold Obligations.DksRunOfSeventeenSteps
  intro data s hp hport hnr
  have hstep := step_accepts_dks hp hport
  obtain ⟨hend, hmid⟩ := run_ksInit data (noReset_succ (t := s.advanceInputs) hnr rfl).2
  refine ⟨?_, fun k hpos hk => ?_⟩
  · rw [run_succ hstep, hend, afterDerivation_ksInit (s := s.advanceInputs) hp, responseWord_ok_zero,
      State.advanceInputs_inputs, List.drop_tail]
    rfl
  · obtain ⟨j, rfl⟩ := Nat.exists_eq_succ_of_ne_zero hpos.ne'
    obtain ⟨t, ht, hder⟩ := hmid j (by omega)
    exact ⟨t, by rw [run_succ hstep, ht], hder.phase, hder.rspValid, hder.kvalid⟩

/-! ### A schedule is read-only (41_key_schedule.md R71) -/

theorem rst_of_not_rekeys {s : State} (h : rekeys s = false) : s.port.rst = false :=
  (Bool.or_eq_false_iff.1 h).1

theorem rekeys_of_dks {s : State} (hp : s.phase = .idle) (hv : s.port.cmdValid = true) (hop : fieldOp s.port.cmd = 0b01)
    (hlen : fieldLen s.port.cmd = 8) : rekeys s = true := by
  simp [rekeys, hp, hv, hop, hlen]

/-- Outside a derivation a step that is no reset leaves the store; and unless it accepts a `DKS` of eight bytes it leaves
`KVALID` and starts no derivation. -/
theorem step_keeps_schedule {s t : State} (h : step s = .next t) (hr : s.port.rst = false) (hp : s.phase ≠ .ks) :
    t.rk = s.rk ∧ (rekeys s = false → t.kvalid = s.kvalid ∧ t.phase ≠ .ks) := by
  rcases step_cases h with ⟨hrst, -⟩ | ⟨-, -, -, rfl⟩ |
    ⟨-, hidle, hv, ⟨fault, rfl⟩ | ⟨hop, hlen, rfl⟩ | ⟨-, -, dir, -, rfl⟩⟩ | ⟨-, hks, -⟩ | ⟨-, -, rfl⟩ | ⟨-, -, rfl⟩
  · simp [hr] at hrst
  · exact ⟨rfl, fun _ => ⟨rfl, hp⟩⟩
  · exact ⟨rfl, fun _ => ⟨rfl, hp⟩⟩
  · exact ⟨rfl, fun hk => by simp [rekeys_of_dks hidle hv hop hlen] at hk⟩
  · exact ⟨rfl, fun _ => ⟨rfl, nofun⟩⟩
  · exact absurd hks hp
  · refine ⟨blkRound_rk _, fun _ => ⟨blkRound_kvalid _, ?_⟩⟩
    by_cases hlast : s.rnd = 15
    · rw [blkRound_last s.advanceInputs hlast]
      nofun
    · rw [blkRound_inner s.advanceInputs hlast]
      exact hp
  · exact ⟨rfl, fun _ => ⟨rfl, nofun⟩⟩

theorem noRekey_succ {n : Nat} {s t : State} (h : noRekey (n + 1) s) (hstep : step s = .next t) :
    rekeys s = false ∧ noRekey n t :=
  ⟨h 0 (Nat.succ_pos n) s (run_zero s),
    fun j hj w hw => h (j + 1) (Nat.succ_lt_succ hj) w (by rw [run_succ hstep, hw])⟩

theorem run_keeps_schedule {n : Nat} {s t : State} (hp : s.phase ≠ .ks) (hno : noRekey n s) (h : run n s = .next t) :
    t.rk = s.rk ∧ t.kvalid = s.kvalid ∧ t.phase ≠ .ks := by
  induction n generalizing s with
  | zero =>
    cases h
    exact ⟨rfl, rfl, hp⟩
  | succ n ih =>
    obtain ⟨u, hu⟩ := step_next s
    obtain ⟨hk, hno'⟩ := noRekey_succ hno hu
    obtain ⟨hrk, hkeep⟩ := step_keeps_schedule hu (rst_of_not_rekeys hk) hp
    obtain ⟨hkv, hp'⟩ := hkeep hk
    rw [run_succ hu] at h
    rw [← hrk, ← hkv]
    exact ih hp' hno' h

/-- Settles O49: no step outside a derivation writes the store, and then by induction on the run. -/
theorem aScheduleIsReadOnly : Obligations.AScheduleIsReadOnly := by
  unfold Obligations.AScheduleIsReadOnly
  refine ⟨fun s t h hr hp => ?_, fun n s t hp hno h => run_keeps_schedule hp hno h⟩
  obtain ⟨hrk, hkeep⟩ := step_keeps_schedule h hr hp
  exact ⟨hrk, fun hk => (hkeep hk).1⟩

end Sys2Proof.Machine
end

section
/-! Proofs of the statements about the round function and the cipher as pure functions (spec/42_round_function.md,
spec/95_test_vectors.md V11): `f` position by position, `f` as a function of a sum, and the complement. -/

namespace Sys2Proof.Machine

/-! ### The S-boxes and their nibbles (42_round_function.md R76, R77, R87) -/

theorem sboxGroup_getMsbD (x : BitVec 48) {g j : Nat} (hg : g < 8) (hj : j < 6) :
    (sboxGroup x g).getMsbD j = x.getMsbD (6 * g + j) := by
  rw [sboxGroup, BitVec.getMsbD_extractLsb', decide_eq_true hj, decide_eq_true (by omega), Bool.true_and, Bool.true_and]
  congr 1
  omega

theorem sboxEntry_getMsbD (g a : Nat) {j : Nat} (hj : j < 4) :
    (sboxEntry g a).getMsbD j = ((tableSBOX.getD g []).getD a 0).testBit (3 - j) := by
  rw [sboxEntry, BitVec.getMsbD_eq_getLsbD, BitVec.getLsbD_ofNat, decide_eq_true hj, decide_eq_true (by omega),
    Bool.true_and, Bool.true_and]

/-- The nibbles stand in order, the first S-box's first. -/
theorem substitute_getMsbD (x : BitVec 48) {p : Nat} (hp : p < 32) :
    (substitute x).getMsbD p = (sboxLane x (p / 4)).getMsbD (p % 4) := by
  simp only [substitute, BitVec.getMsbD_append]
  repeat' split
  all_goals congr 2 <;> omega

/-! ### The round function position by position (42_round_function.md R74, R75, R89) -/

theorem expand_getMsbD (rh : Half) {i : Nat} (hi : i < 48) :
    (expand rh).getMsbD i = rh.getMsbD (tableE.getD i 0) :=
  permute_getMsbD_getD tableE rh rfl hi

theorem f_getMsbD (rh : Half) (k : RoundKey) {q : Nat} (hq : q < 32) :
    (f rh k).getMsbD q = (substitute (xorBits (expand rh) k)).getMsbD (tableP.getD q 0) :=
  permute_getMsbD_getD tableP _ rfl hq

/-- Bit `j` of what S-box `g` is given: the half's position under E, and the round key's own. -/
theorem sboxInput_getMsbD (rh : Half) (k : RoundKey) {g j : Nat} (hg : g < 8) (hj : j < 6) :
    (sboxGroup (xorBits (expand rh) k) g).getMsbD j =
      (rh.getMsbD (tableE.getD (6 * g + j) 0) ^^ k.getMsbD (6 * g + j)) := by
  rw [sboxGroup_getMsbD _ hg hj, xorBits, BitVec.getMsbD_xor, expand_getMsbD rh (by omega)]

theorem tableP_lt : ∀ q < 32, tableP.getD q 0 < 32 := by decide

/-- Settles O11, by following position `q` back: through P to a bit of one nibble, and from the nibble's S-box to the six
bits that select its entry. -/
theorem roundFunctionByPositions : Obligations.RoundFunctionByPositions := by
  unfold Obligations.RoundFunctionByPositions
  intro rh k q hq b a p
  have hp : p < 32 := tableP_lt q hq
  have hg : p / 4 < 8 := by omega
  have hbit : ∀ j < 6, ((sboxGroup (xorBits (expand rh) k) (p / 4)).getMsbD j).toNat = b (6 * (p / 4) + j) :=
    fun j hj => congrArg Bool.toNat (sboxInput_getMsbD rh k hg hj)
  have hindex : sboxIndex (sboxGroup (xorBits (expand rh) k) (p / 4)) = a (p / 4) := by
    simp only [sboxIndex, sboxRow, sboxColumn, hbit, Nat.reduceLT, a, Nat.add_zero, Nat.add_assoc]
  calc (f rh k).getMsbD q
    _ = (substitute (xorBits (expand rh) k)).getMsbD p := f_getMsbD rh k hq
    _ = (sboxLane (xorBits (expand rh) k) (p / 4)).getMsbD (p % 4) := substitute_getMsbD _ hp
    _ = (sboxEntry (p / 4) (a (p / 4))).getMsbD (p % 4) := by rw [sboxLane, hindex]
    _ = ((tableSBOX.getD (p / 4) []).getD (a (p / 4)) 0).testBit (3 - p % 4) :=
      sboxEntry_getMsbD _ _ (Nat.mod_lt p (by decide))

/-! ### Complements (42_round_function.md R90) -/

/-- A table that selects positions of its input only permutes the complement to the complement. -/
theorem permute_not {n m : Nat} {t : List Nat} (x : BitVec n) (ht : t.length = m) (hlt : ∀ i < m, t.getD i 0 < n) :
    permute m t (~~~x) = ~~~(permute m t x) := by
  apply BitVec.eq_of_getMsbD_eq
  intro i hi
  rw [permute_getMsbD_getD t _ ht hi, BitVec.getMsbD_not, BitVec.getMsbD_not, permute_getMsbD_getD t x ht hi,
    decide_eq_true (hlt i hi), decide_eq_true hi]

theorem expand_not (rh : Half) : expand (~~~rh) = ~~~(expand rh) := permute_not rh rfl (by decide)

/-- `f` reads its arguments only through their sum after expansion. -/
theorem f_congr {r₁ r₂ : Half} {k₁ k₂ : RoundKey} (h : xorBits (expand r₁) k₁ = xorBits (expand r₂) k₂) :
    f r₁ k₁ = f r₂ k₂ := by
  rw [f, f, h]

/-- The complements cancel in the sum. -/
theorem f_not_not (rh : Half) (k : RoundKey) : f (~~~rh) (~~~k) = f rh k := by
  apply f_congr
  rw [expand_not, xorBits, xorBits, ← BitVec.not_xor_left, ← BitVec.not_xor_right, BitVec.not_not]

/-- Settles O12: the sums are equal position by position. -/
theorem roundFunctionSeesOnlyTheSum : Obligations.RoundFunctionSeesOnlyTheSum := by
  unfold Obligations.RoundFunctionSeesOnlyTheSum
  refine ⟨fun r₁ r₂ k₁ k₂ h => f_congr (BitVec.eq_of_getMsbD_eq fun p hp => ?_), f_not_not⟩
  rw [xorBits, xorBits, BitVec.getMsbD_xor, BitVec.getMsbD_xor]
  exact h p hp

/-! ### The schedule of the complemented key (41_key_schedule.md R62) -/

theorem leftKeyHalf_not (x : BitVec 56) : leftKeyHalf (~~~x) = ~~~(leftKeyHalf x) := by
  conv_lhs => rw [← leftKeyHalf_rightKeyHalf x, BitVec.not_append, leftKeyHalf_append]

theorem rightKeyHalf_not (x : BitVec 56) : rightKeyHalf (~~~x) = ~~~(rightKeyHalf x) := by
  conv_lhs => rw [← leftKeyHalf_rightKeyHalf x, BitVec.not_append, rightKeyHalf_append]

theorem rotl28_not (h : KeyHalf) {s : Nat} (hs : s ≤ 28) : rotl28 (~~~h) s = ~~~(rotl28 h s) := by
  apply BitVec.eq_of_getMsbD_eq
  intro p hp
  rw [rotl28_getMsbD _ hs hp, BitVec.getMsbD_not, BitVec.getMsbD_not, rotl28_getMsbD h hs hp,
    decide_eq_true (Nat.mod_lt _ (by decide)), decide_eq_true hp]

theorem permutedKey_not (key : Block) : permutedKey (~~~key) = ~~~(permutedKey key) := by
  rw [permutedKey, permutedKey, operandBits_eq, operandBits_eq]
  exact permute_not key rfl (by decide)

theorem keyHalves_not (key : Block) (n : Nat) :
    keyHalves (~~~key) n = (~~~(keyHalves key n).1, ~~~(keyHalves key n).2) := by
  induction n with
  | zero => rw [keyHalves_zero, keyHalves_zero, permutedKey_not, leftKeyHalf_not, rightKeyHalf_not]
  | succ n ih =>
    rw [keyHalves_succ, keyHalves_succ, ih, rotl28_not _ (shiftAmount_le n), rotl28_not _ (shiftAmount_le n)]

theorem compress_not (c d : KeyHalf) : compress (~~~c) (~~~d) = ~~~(compress c d) := by
  rw [compress, compress, ← BitVec.not_append]
  exact permute_not (c ++ d) rfl (by decide)

/-- The complemented key has the complemented round keys. -/
theorem keySchedule_not (key : Block) : keySchedule (~~~key) = (keySchedule key).map (~~~·) := by
  apply Vector.ext
  intro i hi
  rw [Vector.getElem_map, keySchedule, keySchedule, Vector.getElem_ofFn, Vector.getElem_ofFn, roundKey, roundKey,
    keyHalves_not, compress_not]

/-! ### The cipher under complemented round keys (43_feistel_cipher.md R94 to R98) -/

theorem leftHalf_not (x : Block) : leftHalf (~~~x) = ~~~(leftHalf x) := by
  conv_lhs => rw [← leftHalf_rightHalf x, BitVec.not_append, leftHalf_append]

theorem rightHalf_not (x : Block) : rightHalf (~~~x) = ~~~(rightHalf x) := by
  conv_lhs => rw [← leftHalf_rightHalf x, BitVec.not_append, rightHalf_append]

theorem initialBlock_not (x : Block) : initialBlock (~~~x) = ~~~(initialBlock x) := by
  rw [initialBlock, initialBlock, operandBits_eq, operandBits_eq]
  exact permute_not x rfl (by decide)

theorem finalBlock_not (l r : Half) : finalBlock (~~~l) (~~~r) = ~~~(finalBlock l r) := by
  rw [finalBlock, finalBlock, ← BitVec.not_append]
  exact permute_not (r ++ l) rfl (by decide)

theorem keyOfRound_map_not (dir : Dir) (ks : Vector RoundKey 16) (i : BitVec 4) :
    keyOfRound dir (ks.map (~~~·)) i = ~~~(keyOfRound dir ks i) :=
  Vector.getElem_map _ _

/-- A round complements along: `f` gives the same, and the half it is added to is complemented. -/
theorem feistelRound_not (k : RoundKey) (l r : Half) :
    feistelRound (~~~k) (~~~l, ~~~r) = (~~~(feistelRound k (l, r)).1, ~~~(feistelRound k (l, r)).2) := by
  simp only [feistelRound, f_not_not, xorBits, BitVec.not_xor_left]

theorem blockHalves_not (dir : Dir) (ks : Vector RoundKey 16) (x : Block) (n : Nat) :
    blockHalves dir (ks.map (~~~·)) (~~~x) n =
      (~~~(blockHalves dir ks x n).1, ~~~(blockHalves dir ks x n).2) := by
  induction n with
  | zero => rw [blockHalves, blockHalves, initialBlock_not, leftHalf_not, rightHalf_not]
  | succ n ih => rw [blockHalves, blockHalves, ih, keyOfRound_map_not, feistelRound_not]

/-- For any sixteen round keys, whether or not a key's schedule. -/
theorem des_not (dir : Dir) (ks : Vector RoundKey 16) (x : Block) :
    des dir (ks.map (~~~·)) (~~~x) = ~~~(des dir ks x) := by
  rw [des, des, blockHalves_not, finalBlock_not]

/-- Settles O15, by complementing the schedule and then the cipher. -/
theorem complementationProperty : Obligations.ComplementationProperty := by
  unfold Obligations.ComplementationProperty
  intro dir key x
  rw [keySchedule_not, des_not]

end Sys2Proof.Machine
end

section
/-! Proofs of the statements about the Feistel cipher (spec/43_feistel_cipher.md): the final permutation undoes the
initial one, a round under the same key undoes a round, and the micro-operations compute the pure function `DES`. -/

namespace Sys2Proof.Machine

/-! ### The initial and the final permutation (43_feistel_cipher.md R93, R94, R97) -/

theorem tableIP_undone : ∀ i < 64, tableFP.getD i 0 < 64 ∧ tableIP.getD (tableFP.getD i 0) 0 = i := by decide

theorem tableFP_undone : ∀ i < 64, tableIP.getD i 0 < 64 ∧ tableFP.getD (tableIP.getD i 0) 0 = i := by decide

theorem permute_tableFP_tableIP (x : Block) : permute 64 tableFP (permute 64 tableIP x) = x :=
  permute_permute_of_undone x rfl rfl tableIP_undone

theorem permute_tableIP_tableFP (x : Block) : permute 64 tableIP (permute 64 tableFP x) = x :=
  permute_permute_of_undone x rfl rfl tableFP_undone

/-- Settles O4: the tables undo each other entry by entry, and so do the permutations. -/
theorem finalInvertsInitial : Obligations.FinalInvertsInitial := by
  unfold Obligations.FinalInvertsInitial
  exact ⟨fun i hi => (tableFP_undone i hi).2, fun i hi => (tableIP_undone i hi).2, permute_tableFP_tableIP,
    permute_tableIP_tableFP⟩

theorem initialBlock_eq_permute (x : Block) : initialBlock x = permute 64 tableIP x := by
  rw [initialBlock, operandBits_eq]

theorem initialBlock_getMsbD (x : Block) {p : Nat} (hp : p < 64) :
    (initialBlock x).getMsbD p = x.getMsbD (tableIP.getD p 0) := by
  rw [initialBlock_eq_permute]
  exact permute_getMsbD_getD tableIP x rfl hp

theorem finalBlock_getMsbD (l r : Half) {p : Nat} (hp : p < 64) :
    (finalBlock l r).getMsbD p = (r ++ l).getMsbD (tableFP.getD p 0) :=
  permute_getMsbD_getD tableFP (r ++ l) rfl hp

/-- The final permutation of the last halves is undone when they are the next block: they come back swapped. -/
theorem initialBlock_finalBlock (l r : Half) : initialBlock (finalBlock l r) = r ++ l := by
  rw [initialBlock_eq_permute, finalBlock, permute_tableIP_tableFP]

/-- The final permutation of a block's first halves, swapped, is the block. -/
theorem finalBlock_initialBlock (x : Block) :
    finalBlock (rightHalf (initialBlock x)) (leftHalf (initialBlock x)) = x := by
  rw [finalBlock, leftHalf_rightHalf, initialBlock_eq_permute, permute_tableFP_tableIP]

/-! ### The round keys in either direction (43_feistel_cipher.md R96) -/

theorem keyIndex_encrypt_toNat (i : BitVec 4) : (keyIndex .encrypt i).toNat = i.toNat := rfl

theorem keyIndex_decrypt_toNat : ∀ i : BitVec 4, (keyIndex .decrypt i).toNat = 15 - i.toNat := by decide

theorem keyIndex_decrypt_eq_not : ∀ i : BitVec 4, keyIndex .decrypt i = ~~~i := by decide

theorem roundNumber_toNat (i : Fin 16) : (BitVec.ofNat 4 i.val).toNat = i.val := Nat.mod_eq_of_lt i.isLt

/-- Settles O13: the entry that `keyIndex` names, for each direction. -/
theorem roundKeyOrder : Obligations.RoundKeyOrder := by
  unfold Obligations.RoundKeyOrder
  intro ks i
  refine ⟨?_, ?_, keyIndex_decrypt_eq_not _⟩
  · simp only [keyOfRound, keyIndex_encrypt_toNat, roundNumber_toNat, Fin.getElem_fin]
  · simp only [keyOfRound, keyIndex_decrypt_toNat, roundNumber_toNat]

/-- The directions use the round keys in opposite orders. -/
theorem keyIndex_otherDir (dir : Dir) :
    ∀ i < 16, keyIndex (otherDir dir) (BitVec.ofNat 4 i) = keyIndex dir (BitVec.ofNat 4 (15 - i)) := by
  cases dir <;> decide

/-! ### Each direction undoes the other (43_feistel_cipher.md R98, R105) -/

/-- A round undoes the round of the same key between swapped halves: `f` is added twice. -/
theorem feistelRound_swap_feistelRound (k : RoundKey) (lr : Half × Half) :
    feistelRound k (feistelRound k lr).swap = lr.swap :=
  Prod.ext rfl (by simp [feistelRound, xorBits])

/-- Undoing runs backwards: `i` rounds on the result are at the swapped halves `i` rounds before the end. -/
theorem blockHalves_otherDir (dir : Dir) (ks : Vector RoundKey 16) (x : Block) {i j : Nat} (h : i + j = 16) :
    blockHalves (otherDir dir) ks (des dir ks x) i = (blockHalves dir ks x j).swap := by
  induction i generalizing j with
  | zero =>
    obtain rfl : j = 16 := by omega
    rw [blockHalves, des, initialBlock_finalBlock, leftHalf_append, rightHalf_append]
    rfl
  | succ i ih =>
    obtain rfl : j = 15 - i := by omega
    have hkey : keyOfRound (otherDir dir) ks (BitVec.ofNat 4 i) = keyOfRound dir ks (BitVec.ofNat 4 (15 - i)) := by
      simp only [keyOfRound, keyIndex_otherDir dir i (by omega)]
    rw [blockHalves, hkey, ih (j := 15 - i + 1) (by omega), blockHalves, feistelRound_swap_feistelRound]

theorem des_otherDir_des (dir : Dir) (ks : Vector RoundKey 16) (x : Block) :
    des (otherDir dir) ks (des dir ks x) = x := by
  rw [des, blockHalves_otherDir dir ks x (show 16 + 0 = 16 from rfl)]
  exact finalBlock_initialBlock x

/-- Settles O14: in both orders the second direction undoes the first. -/
theorem cipherRoundTrip : Obligations.CipherRoundTrip := by
  unfold Obligations.CipherRoundTrip
  exact fun ks x => ⟨des_otherDir_des .encrypt ks x, des_otherDir_des .decrypt ks x⟩

/-! ### The micro-operations (43_feistel_cipher.md R101 to R103) -/

/-- Settles O32: the halves that `BLK_INIT` loads, read through IP. -/
theorem blkInitLoadsThePermutedBlock : Obligations.BlkInitLoadsThePermutedBlock := by
  unfold Obligations.BlkInitLoadsThePermutedBlock
  refine fun dir data s hp hk => ⟨_, _, exec_blkInit hp hk dir data, fun p hlt => ⟨?left, ?right⟩⟩
  case left => rw [leftHalf_getMsbD _ p hlt, initialBlock_getMsbD data (by omega)]
  case right => rw [rightHalf_getMsbD _ p hlt, initialBlock_getMsbD data (by omega)]

theorem readRK_eq_getElem (s : State) {i : BitVec 4} {j : Fin 16} (h : j.val = i.toNat) : s.readRK i = s.rk[j] := by
  simp only [State.readRK, Fin.getElem_fin, h]

/-- Settles O33: the entry read is the direction's, and both branches of `BLK_ROUND` make the same round of it. -/
theorem blkRoundIsAFeistelRound : Obligations.BlkRoundIsAFeistelRound := by
  unfold Obligations.BlkRoundIsAFeistelRound
  intro s hp
  refine ⟨s.readRK (keyIndex s.dir s.rnd), fun j hj => ?key, ?state⟩
  case key =>
    cases hdir : s.dir with
    | encrypt => exact readRK_eq_getElem s (by rw [hj, hdir, keyIndex_encrypt_toNat])
    | decrypt => exact readRK_eq_getElem s (by rw [hj, hdir, keyIndex_decrypt_toNat])
  case state =>
    rw [exec_blkRound hp]
    by_cases hlast : s.rnd = 15
    · rw [blkRound_last s hlast, if_pos hlast]
      rfl
    · rw [blkRound_inner s hlast, if_neg hlast]
      rfl

/-- The two new halves are a round of the old ones (R95). -/
theorem blkRound_halves (s : State) :
    ((blkRound s).l, (blkRound s).r) = feistelRound (keyOfRound s.dir s.rk s.rnd) (s.l, s.r) := by
  rw [blkRound_l, blkRound_r, feistelRound, keyOfRound, State.readRK]

/-- Position `p` of a response's data is bit `63 - p` of the word (30_encoding.md R42). -/
theorem responseWord_getLsbD (code : Code) (data : Block) {p : Nat} (hp : p < 64) :
    (responseWord code data).getLsbD (63 - p) = data.getMsbD p := by
  rw [responseWord, BitVec.getLsbD_append, if_pos (by omega), BitVec.getMsbD_eq_getLsbD, decide_eq_true hp,
    Bool.true_and]

/-- Settles O34: the response's code, and its data read through FP. -/
theorem blkFinalRespondsWithTheBlock : Obligations.BlkFinalRespondsWithTheBlock := by
  unfold Obligations.BlkFinalRespondsWithTheBlock
  refine fun s hp => ⟨_, exec_blkFinal hp, responseCode_word .ok _, fun p hlt => ?_⟩
  rw [responseWord_getLsbD .ok _ hlt, finalBlock_getMsbD s.l s.r hlt]

/-! ### A run of a block command (43_feistel_cipher.md R99, R100, R104) -/

/-- A block command on `data` has done `n` of its rounds and not answered yet: the next is to come, or after sixteen the
final permutation. -/
structure MidBlock (dir : Dir) (data : Block) (n : Nat) (s : State) : Prop where
  busy : s.phase = .blk ∧ s.rnd.toNat = n ∨ s.phase = .fin ∧ s.rnd = 0 ∧ n = 16
  rspValid : s.rspValid = false
  direction : s.dir = dir
  halves : (s.l, s.r) = blockHalves dir s.rk data n

/-- `s` when the block command on `data` has completed, `n` steps on. -/
def State.afterBlock (dir : Dir) (data : Block) (n : Nat) (s : State) : State :=
  { s with
    l := (blockHalves dir s.rk data 16).1
    r := (blockHalves dir s.rk data 16).2
    rnd := 0
    dir := dir
    phase := .idle
    rsp := responseWord .ok (des dir s.rk data)
    rspValid := true
    inputs := s.inputs.drop n }

section Rounds

variable {dir : Dir} {data : Block} {n : Nat} {s : State}

theorem MidBlock.not_idle (h : MidBlock dir data n s) : s.phase ≠ .idle := by
  obtain ⟨hp, -⟩ | ⟨hp, -⟩ := h.busy <;> rw [hp] <;> nofun

theorem MidBlock.phase_blk (h : MidBlock dir data n s) (hn : n < 16) : s.phase = .blk ∧ s.rnd.toNat = n :=
  h.busy.resolve_right fun ⟨_, _, hlast⟩ => by omega

theorem MidBlock.phase_fin (h : MidBlock dir data 16 s) : s.phase = .fin ∧ s.rnd = 0 := by
  obtain ⟨-, hrnd⟩ | ⟨hp, hrnd, -⟩ := h.busy
  · exact absurd hrnd s.rnd.isLt.ne
  · exact ⟨hp, hrnd⟩

theorem blkInit_midBlock (dir : Dir) (data : Block) (s : State) : MidBlock dir data 0 (blkInit dir data s) :=
  ⟨.inl ⟨rfl, rfl⟩, rfl, rfl, rfl⟩

theorem advanceInputs_keeps_midBlock (h : MidBlock dir data n s) : MidBlock dir data n s.advanceInputs :=
  ⟨h.busy, h.rspValid, h.direction, h.halves⟩

/-- `BLK_ROUND` does one more round, and after the sixteenth leaves the final permutation to do. -/
theorem blkRound_midBlock (h : MidBlock dir data n s) (hn : n < 16) : MidBlock dir data (n + 1) (blkRound s) := by
  obtain ⟨hp, rfl⟩ := h.phase_blk hn
  refine ⟨?busy, blkRound_rspValid s, (blkRound_dir s).trans h.direction, ?halves⟩
  case busy =>
    by_cases hlast : s.rnd = 15
    · rw [blkRound_last s hlast, hlast]
      exact .inr ⟨rfl, rfl, rfl⟩
    · rw [blkRound_inner s hlast]
      exact .inl ⟨hp, rnd_succ hlast⟩
  case halves =>
    rw [blkRound_halves, h.direction, h.halves, blkRound_rk, blockHalves, BitVec.ofNat_toNat, BitVec.setWidth_eq]

/-- `BLK_FINAL` answers and completes the command. -/
theorem blkFinal_completes_block (h : MidBlock dir data 16 s) : blkFinal s = s.afterBlock dir data 0 := by
  obtain ⟨-, hrnd⟩ := h.phase_fin
  rw [State.afterBlock, des, ← h.halves, ← h.direction, ← hrnd]
  rfl

/-- The command that a step advances is the one that will have completed. -/
theorem afterBlock_blkRound (dir : Dir) (data : Block) (n : Nat) (s : State) :
    (blkRound s.advanceInputs).afterBlock dir data n = s.afterBlock dir data (n + 1) := by
  simp [State.afterBlock]

/-- A step of the rounds does one of them. -/
theorem step_midBlock (h : MidBlock dir data n s) (hn : n < 16) (hr : s.port.rst = false) :
    step s = .next (blkRound s.advanceInputs) ∧ MidBlock dir data (n + 1) (blkRound s.advanceInputs) :=
  ⟨step_blk s hr (h.phase_blk hn).1, blkRound_midBlock (advanceInputs_keeps_midBlock h) hn⟩

/-- The step after the rounds completes the command. -/
theorem step_completes_block (h : MidBlock dir data 16 s) (hr : s.port.rst = false) :
    step s = .next (s.afterBlock dir data 1) := by
  rw [step_fin s hr h.phase_fin.1, blkFinal_completes_block (advanceInputs_keeps_midBlock h)]
  simp [State.afterBlock]

/-- Without a reset the command completes in the rounds left and one step more, and is under way until then. -/
theorem run_block {m : Nat} (h : MidBlock dir data n s) (hm : n + m = 16) (hnr : noReset (m + 1) s) :
    run (m + 1) s = .next (s.afterBlock dir data (m + 1)) ∧
      ∀ j < m + 1, ∃ t, run j s = .next t ∧ MidBlock dir data (n + j) t := by
  induction m generalizing n s with
  | zero =>
    obtain rfl : n = 16 := hm
    have hr : s.port.rst = false := (noReset_succ (t := s.advanceInputs) hnr rfl).1
    refine ⟨by rw [run_succ (step_completes_block h hr), run_zero], fun j hj => ?_⟩
    obtain rfl : j = 0 := by omega
    exact ⟨s, run_zero s, h⟩
  | succ m ih =>
    obtain ⟨hr, hnr'⟩ := noReset_succ hnr (blkRound_inputs s.advanceInputs)
    obtain ⟨hstep, hnext⟩ := step_midBlock h (by omega) hr
    obtain ⟨hend, hmid⟩ := ih hnext (by omega) hnr'
    refine ⟨by rw [run_succ hstep, hend, afterBlock_blkRound], fun j hj => ?_⟩
    cases j with
    | zero => exact ⟨s, run_zero s, h⟩
    | succ j =>
      rw [run_succ hstep, ← Nat.add_assoc, Nat.add_right_comm]
      exact hmid j (by omega)

end Rounds

/-- The command that starts in an idle engine leaves what it does not name as it was there. -/
theorem afterBlock_blkInit (dir : Dir) (data : Block) (n : Nat) (s : State) :
    (blkInit dir data s).afterBlock dir data n = s.afterBlock dir data n := rfl

theorem run_blkInit (dir : Dir) (data : Block) {s : State} (hnr : noReset 17 s) :
    run 17 (blkInit dir data s) = .next (s.afterBlock dir data 17) ∧
      ∀ j < 17, ∃ t, run j (blkInit dir data s) = .next t ∧ MidBlock dir data j t := by
  simpa [afterBlock_blkInit] using run_block (blkInit_midBlock dir data s) rfl hnr

/-- Settles O36: the two faults, or `BLK_INIT` and the seventeen steps after it. -/
theorem blockCommandsRespondWithDes : Obligations.BlockCommandsRespondWithDes := by
  unfold Obligations.BlockCommandsRespondWithDes
  refine fun dir len data s hp hnr => ⟨fun hlen => ?_, fun hlen hk => ?_, fun hlen hk => ?_⟩
  · rw [exec_blockCommand hp, acceptBlock_wrongLength hlen]
    rfl
  · rw [exec_blockCommand hp, hlen, acceptBlock_noSchedule hk]
    rfl
  · refine ⟨blkInit dir data s, by rw [exec_blockCommand hp, hlen, acceptBlock_scheduled hk], ?_⟩
    rw [(run_blkInit dir data hnr).1, State.afterBlock, ← hp]
    rfl

theorem decodeCommand_commandWord_block (dir : Dir) (len : BitVec 4) (data : Block) :
    decodeCommand (commandWord (opOfDir dir) len data) = blockCommand dir len data := by
  rw [decodeCommand_block (Laws.fieldOp_commandWord _ _ _), Laws.fieldLen_commandWord, Laws.fieldData_commandWord]

/-- The step that accepts a block command of eight bytes under a schedule is its `BLK_INIT`. -/
theorem step_accepts_block {s : State} {dir : Dir} {data : Block} (hp : s.phase = .idle) (hk : s.kvalid = true)
    (hport : s.port = PortIn.present (commandWord (opOfDir dir) 8 data)) :
    step s = .next (blkInit dir data s.advanceInputs) := by
  have hcmd : s.port.cmd = commandWord (opOfDir dir) 8 data := by rw [hport]; rfl
  rw [step_accept s (by rw [hport]; rfl) hp (by rw [hport]; rfl), hcmd, decodeCommand_commandWord_block,
    exec_blockCommand (s := s.advanceInputs) hp, acceptBlock_scheduled (s := s.advanceInputs) hk]

/-- A block command that is accepted completes in eighteen steps, and is under way until then. -/
theorem run_blockCommand {s : State} {dir : Dir} {data : Block} (hp : s.phase = .idle) (hk : s.kvalid = true)
    (hport : s.port = PortIn.present (commandWord (opOfDir dir) 8 data)) (hnr : noReset 18 s) :
    run 18 s = .next (s.afterBlock dir data 18) ∧ ∀ j < 17, ∃ t, run (j + 1) s = .next t ∧ MidBlock dir data j t := by
  have hstep := step_accepts_block hp hk hport
  obtain ⟨hend, hmid⟩ := run_blkInit dir data (noReset_succ (t := s.advanceInputs) hnr rfl).2
  refine ⟨?_, fun j hj => by rw [run_succ hstep]; exact hmid j hj⟩
  rw [run_succ hstep, hend]
  simp [State.afterBlock]

/-- Settles O45: the command's run, whose end leaves the engine idle as it was. -/
theorem blockRunOfEighteenSteps : Obligations.BlockRunOfEighteenSteps := by
  unfold Obligations.BlockRunOfEighteenSteps
  intro dir data s hp hk hport hnr
  obtain ⟨hend, hmid⟩ := run_blockCommand hp hk hport hnr
  refine ⟨?_, fun k hpos hlt => ?_⟩
  · rw [hend, State.afterBlock, ← hp]
    rfl
  · obtain ⟨j, rfl⟩ := Nat.exists_eq_succ_of_ne_zero hpos.ne'
    obtain ⟨t, ht, hblock⟩ := hmid j (by omega)
    exact ⟨t, ht, hblock.not_idle, hblock.rspValid⟩

/-! ### What the host sees of block commands (43_feistel_cipher.md R105, R106) -/

/-- Settles O51: the completed command's response is `DES` of the block under the store, which both engines hold. -/
theorem blockResponsesAreDetermined : Obligations.BlockResponsesAreDetermined := by
  unfold Obligations.BlockResponsesAreDetermined
  intro dir data s₁ s₂ hp₁ hp₂ hk₁ hk₂ hrk hport₁ hport₂ hnr₁ hnr₂
  refine ⟨_, _, (run_blockCommand hp₁ hk₁ hport₁ hnr₁).1, (run_blockCommand hp₂ hk₂ hport₂ hnr₂).1, ?_, rfl, rfl⟩
  rw [State.afterBlock, State.afterBlock, hrk]

/-- Settles O46: the schedule is kept between the two commands, and under it their directions undo each other. -/
theorem engineRoundTrip : Obligations.EngineRoundTrip := by
  unfold Obligations.EngineRoundTrip
  intro dir x s t u v n hp hk hport hnr ht hu hno hpu hportu hnru hv
  obtain rfl := Host.Outcome.next.inj ((run_blockCommand hp hk hport hnr).1.symm.trans ht)
  obtain ⟨hrk, hku, -⟩ := run_keeps_schedule (show (s.afterBlock dir x 18).phase ≠ .ks from nofun) hno hu
  obtain rfl := Host.Outcome.next.inj ((run_blockCommand hpu (hku.trans hk) hportu hnru).1.symm.trans hv)
  have hrk : u.rk = s.rk := hrk
  have hdata : responseData (s.afterBlock dir x 18).rsp = des dir s.rk x := responseData_word .ok _
  refine ⟨responseCode_word .ok _, ?_, rfl⟩
  calc responseWord .ok (des (otherDir dir) u.rk (responseData (s.afterBlock dir x 18).rsp))
    _ = responseWord .ok (des (otherDir dir) s.rk (des dir s.rk x)) := by rw [hrk, hdata]
    _ = responseWord .ok x := by rw [des_otherDir_des]

end Sys2Proof.Machine
end

section
/-! Proofs of the statements about the faults (spec/60_exceptions.md): which command words raise which, that a fault leaves
nothing but its response, and that the command after it goes as it would have gone. -/

namespace Sys2Proof.Machine

/-! ### The three faults (60_exceptions.md R110 to R112) -/

/-- Settles O38: each of the three commands checks its operand's size before all else. -/
theorem wrongLengthFaults : Obligations.WrongLengthFaults := by
  unfold Obligations.WrongLengthFaults
  intro len data s hp hlen i hi
  obtain rfl | rfl | rfl : i = .dks len data ∨ i = .enc len data ∨ i = .dec len data := by simpa using hi
  · rw [exec_dks hp, acceptDks_wrongLength hlen]
    rfl
  · rw [exec_enc hp, acceptBlock_wrongLength hlen]
    rfl
  · rw [exec_dec hp, acceptBlock_wrongLength hlen]
    rfl

/-- Settles O39: a block command of the legal size checks `KVALID` next. -/
theorem blockCommandWithoutScheduleFaults : Obligations.BlockCommandWithoutScheduleFaults := by
  unfold Obligations.BlockCommandWithoutScheduleFaults
  intro data s hp hk i hi
  obtain rfl | rfl : i = .enc 8 data ∨ i = .dec 8 data := by simpa using hi
  · rw [exec_enc hp, acceptBlock_noSchedule hk]
    rfl
  · rw [exec_dec hp, acceptBlock_noSchedule hk]
    rfl

/-- Settles O40: the meaning of a reserved word does not read its payload. -/
theorem reservedCommandFaults : Obligations.ReservedCommandFaults := by
  unfold Obligations.ReservedCommandFaults
  exact fun payload s hp => exec_reserved hp payload

/-! ### Their priority (60_exceptions.md R116) -/

section Priority

variable {s : State} {cw : CommandWord}

theorem exec_decodeCommand_reserved (hp : s.phase = .idle) (ho : fieldOp cw = 0b00) :
    exec (decodeCommand cw) s = .next (s.raise .illegalCommand) := by
  rw [exec_decodeCommand hp, if_pos ho]

theorem exec_decodeCommand_wrongLength (hp : s.phase = .idle) (ho : fieldOp cw ≠ 0b00) (hl : fieldLen cw ≠ 8) :
    exec (decodeCommand cw) s = .next (s.raise .invalidLength) := by
  rw [exec_decodeCommand hp, if_neg ho, if_pos hl]

theorem exec_decodeCommand_noSchedule {dir : Dir} (hp : s.phase = .idle) (ho : fieldOp cw = opOfDir dir)
    (hl : fieldLen cw = 8) (hk : s.kvalid = false) :
    exec (decodeCommand cw) s = .next (s.raise .noSchedule) := by
  rw [decodeCommand_block ho, exec_blockCommand hp, hl, acceptBlock_noSchedule hk]

end Priority

theorem responseCode_raise (s : State) (fault : Raised) :
    responseCode (s.raise fault).rsp = codeBits (faultCode fault) := responseCode_word _ 0

/-- A step that answers as a raised fault does responds with that fault's code. -/
theorem response_of_eq_raise {s t : State} {fault : Raised}
    (h : (.next t : Host.Outcome State Fault Refusal) = .next (s.raise fault)) :
    responseCode t.rsp = codeBits (faultCode fault) ∧ t.rspValid = true := by
  cases h
  exact ⟨responseCode_raise s fault, rfl⟩

/-- Settles O41: the checks of `Accept` in their order; and under `rst` the step is `Reset`. -/
theorem faultPriority : Obligations.FaultPriority := by
  unfold Obligations.FaultPriority
  refine ⟨fun s hr hp hv => ?accept, fun s hr _ => ⟨_, step_reset s hr, rfl, rfl, rfl⟩⟩
  case accept =>
    obtain ⟨t, ht⟩ := step_next s
    have hidle : s.advanceInputs.phase = .idle := hp
    have haccept := ht.symm.trans (step_accept s hr hp hv)
    refine ⟨t, ht, fun ho => ?illegal, fun ho hl => ?length, fun ho hl hk => ?schedule⟩
    case illegal =>
      exact response_of_eq_raise (haccept.trans (exec_decodeCommand_reserved hidle ho))
    case length =>
      exact response_of_eq_raise (haccept.trans (exec_decodeCommand_wrongLength hidle ho hl))
    case schedule =>
      obtain ⟨dir, ho⟩ : ∃ dir, fieldOp s.port.cmd = opOfDir dir := ho.elim (⟨.encrypt, ·⟩) (⟨.decrypt, ·⟩)
      exact response_of_eq_raise (haccept.trans (exec_decodeCommand_noSchedule hidle ho hl hk))

/-! ### What each instruction writes -/

/-- What an instruction makes of a state in which its step exists. -/
def effect : Instr → State → State
  | .dks len data => acceptDks len data
  | .enc len data => acceptBlock .encrypt len data
  | .dec len data => acceptBlock .decrypt len data
  | .reserved _ => (·.raise .illegalCommand)
  | .ksInit data => ksInit data
  | .ksStep => ksStep
  | .blkInit dir data => blkInit dir data
  | .blkRound => blkRound
  | .blkFinal => blkFinal

theorem exec_eq_effect (i : Instr) (s : State) : exec i s = whenEnabled (enabled i s) (effect i s) := by
  cases i <;> rfl

theorem exec_next_iff (i : Instr) (s t : State) : exec i s = .next t ↔ enabled i s = true ∧ t = effect i s := by
  rw [exec_eq_effect]
  refine ⟨whenEnabled_next, fun ⟨hen, ht⟩ => ?_⟩
  rw [hen, ht, whenEnabled_true]

/-! ### A fault is reported by an `Accept` alone (60_exceptions.md R117) -/

/-- A state without a response, or whose response is `OK`, reports no fault. -/
theorem not_faultReported {s : State} (h : s.rspValid = true → responseCode s.rsp = 0) : ¬faultReported s = true := by
  simpa [faultReported] using h

theorem not_faultReported_ksStep (s : State) : ¬faultReported (ksStep s) = true := by
  rcases ksStep_cases s with ⟨-, e⟩ | ⟨-, e⟩ <;> rw [e]
  · exact not_faultReported fun _ => responseCode_word .ok 0
  · exact not_faultReported nofun

theorem not_faultReported_blkRound (s : State) : ¬faultReported (blkRound s) = true :=
  not_faultReported (by simp)

theorem not_faultReported_blkFinal (s : State) : ¬faultReported (blkFinal s) = true :=
  not_faultReported fun _ => responseCode_word .ok _

theorem acceptDks_fault {len : BitVec 4} {data : Block} {s : State}
    (h : faultReported (acceptDks len data s) = true) : ∃ fault, acceptDks len data s = s.raise fault := by
  rcases acceptDks_cases len data s with ⟨-, e⟩ | ⟨-, e⟩
  · rw [e] at h
    exact absurd h (not_faultReported nofun)
  · exact ⟨_, e⟩

theorem acceptBlock_fault {dir : Dir} {len : BitVec 4} {data : Block} {s : State}
    (h : faultReported (acceptBlock dir len data s) = true) :
    ∃ fault, acceptBlock dir len data s = s.raise fault := by
  rcases acceptBlock_cases dir len data s with ⟨-, -, e⟩ | ⟨-, -, e⟩ | ⟨-, e⟩
  · rw [e] at h
    exact absurd h (not_faultReported nofun)
  · exact ⟨_, e⟩
  · exact ⟨_, e⟩

/-- An instruction after which a fault is reported was taken in `IDLE` and raised it. -/
theorem effect_fault {i : Instr} {s : State} (hen : enabled i s = true) (h : faultReported (effect i s) = true) :
    s.phase = .idle ∧ ∃ fault, effect i s = s.raise fault := by
  cases i with
  | dks len data => exact ⟨beq_iff_eq.1 hen, acceptDks_fault h⟩
  | enc len data => exact ⟨beq_iff_eq.1 hen, acceptBlock_fault h⟩
  | dec len data => exact ⟨beq_iff_eq.1 hen, acceptBlock_fault h⟩
  | reserved payload => exact ⟨beq_iff_eq.1 hen, _, rfl⟩
  | ksInit data => exact absurd h (not_faultReported nofun)
  | ksStep => exact absurd h (not_faultReported_ksStep s)
  | blkInit dir data => exact absurd h (not_faultReported nofun)
  | blkRound => exact absurd h (not_faultReported_blkRound s)
  | blkFinal => exact absurd h (not_faultReported_blkFinal s)

/-- Settles O42: the response word of each fault, and `effect_fault` for the instruction. -/
theorem aFaultLeavesOnlyItsResponse : Obligations.AFaultLeavesOnlyItsResponse := by
  unfold Obligations.AFaultLeavesOnlyItsResponse
  refine ⟨fun s fault => by cases fault <;> rfl, fun i s t h hfault => ?_⟩
  obtain ⟨hen, rfl⟩ := (exec_next_iff i s t).1 h
  exact effect_fault hen hfault

/-! ### After a fault (60_exceptions.md R118) -/

/-- `t'` is `t` but perhaps for an old response left in `RSP`. -/
def EqualButOldResponse (t' t : State) : Prop := { t' with rsp := t.rsp } = t ∧ (t.rspValid = true → t' = t)

theorem enabled_raise (i : Instr) (s : State) (fault : Raised) : enabled i (s.raise fault) = enabled i s := by
  cases i <;> rfl

section AfterFault

variable (s : State) (fault : Raised)

/-- A fault's response overwrites the last one. -/
theorem raise_raise (fault' : Raised) : EqualButOldResponse ((s.raise fault).raise fault') (s.raise fault') :=
  ⟨rfl, fun _ => rfl⟩

theorem ksInit_raise (data : Block) : EqualButOldResponse (ksInit data (s.raise fault)) (ksInit data s) := ⟨rfl, nofun⟩

theorem blkInit_raise (dir : Dir) (data : Block) :
    EqualButOldResponse (blkInit dir data (s.raise fault)) (blkInit dir data s) := ⟨rfl, nofun⟩

theorem acceptDks_raise (len : BitVec 4) (data : Block) :
    EqualButOldResponse (acceptDks len data (s.raise fault)) (acceptDks len data s) := by
  unfold acceptDks
  split
  · exact ksInit_raise s fault data
  · exact raise_raise s fault .invalidLength

/-- The checks of a block command read `KVALID`, which the fault has left. -/
theorem acceptBlock_raise (dir : Dir) (len : BitVec 4) (data : Block) :
    EqualButOldResponse (acceptBlock dir len data (s.raise fault)) (acceptBlock dir len data s) := by
  unfold acceptBlock
  rw [State.raise_kvalid]
  split
  · split
    · exact blkInit_raise s fault dir data
    · exact raise_raise s fault .noSchedule
  · exact raise_raise s fault .invalidLength

end AfterFault

/-- Idle, every instruction does after a fault what it does without it; the `Tick`s are not taken there. -/
theorem effect_raise {i : Instr} {s : State} (hp : s.phase = .idle) (hen : enabled i s = true) (fault : Raised) :
    EqualButOldResponse (effect i (s.raise fault)) (effect i s) := by
  cases i with
  | dks len data => exact acceptDks_raise s fault len data
  | enc len data => exact acceptBlock_raise s fault .encrypt len data
  | dec len data => exact acceptBlock_raise s fault .decrypt len data
  | reserved payload => exact raise_raise s fault .illegalCommand
  | ksInit data => exact ksInit_raise s fault data
  | blkInit dir data => exact blkInit_raise s fault dir data
  | ksStep | blkRound | blkFinal => simp [enabled, hp] at hen

/-- Settles O43: the step exists after the fault as before it, and `effect_raise` compares the two. -/
theorem faultsAreNotSticky : Obligations.FaultsAreNotSticky := by
  unfold Obligations.FaultsAreNotSticky
  intro i s t fault hp h
  obtain ⟨hen, rfl⟩ := (exec_next_iff i s t).1 h
  have hexec : exec i (s.raise fault) = .next (effect i (s.raise fault)) :=
    (exec_next_iff i _ _).2 ⟨(enabled_raise i s fault).trans hen, rfl⟩
  exact ⟨_, hexec, effect_raise hp hen fault⟩

end Sys2Proof.Machine
end

section
/-! Proofs of the statements about resets and hazards (spec/70_reset_and_hazards.md): what a `Reset` step restores, that
nothing is heard of the command it abandons, and the schedules under which the two directions agree. -/

namespace Sys2Proof.Machine

/-! ### The `Reset` step (70_reset_and_hazards.md R125) -/

/-- Settles O25: a step under `rst` is `Reset`, which writes the four control items. -/
theorem resetStepRestoresControl : Obligations.ResetStepRestoresControl := by
  unfold Obligations.ResetStepRestoresControl
  exact fun s hr => ⟨_, step_reset s hr, rfl, rfl, rfl, rfl, rfl⟩

/-! ### After a reset (70_reset_and_hazards.md R126) -/

/-- What holds of the port values of the coming `n + 1` steps, and of a host that drives nothing, holds in the coming step
and in the `n` after it. -/
theorem port_of_take_succ {P : PortIn → Prop} {n : Nat} {s : State} (h : ∀ p ∈ s.inputs.take (n + 1), P p)
    (hquiet : P PortIn.quiet) : P s.port ∧ ∀ p ∈ s.advanceInputs.inputs.take n, P p := by
  rw [State.port, State.advanceInputs_inputs]
  cases hs : s.inputs with
  | nil => exact ⟨hquiet, by simp⟩
  | cons p ps =>
    rw [hs, List.take_succ_cons, List.forall_mem_cons] at h
    exact h

/-- An idle engine that is presented nothing stays as it is. -/
theorem run_quiet {n : Nat} {s : State} (hp : s.phase = .idle)
    (h : ∀ p ∈ s.inputs.take n, p.rst = false ∧ p.cmdValid = false) :
    run n s = .next { s with inputs := s.inputs.drop n } := by
  induction n generalizing s with
  | zero => exact run_zero s
  | succ n ih =>
    obtain ⟨⟨hr, hv⟩, hrest⟩ := port_of_take_succ h ⟨rfl, rfl⟩
    rw [run_succ (step_quiet s hr hp hv), ih (s := s.advanceInputs) hp hrest, State.advanceInputs_inputs,
      List.drop_tail]
    rfl

/-- The step that is presented a block command of eight bytes without a schedule raises `NoSchedule`. -/
theorem step_blockCommand_noSchedule {s : State} {dir : Dir} {data : Block} (hp : s.phase = .idle)
    (hk : s.kvalid = false) (hport : s.port = PortIn.present (commandWord (opOfDir dir) 8 data)) :
    step s = .next (s.advanceInputs.raise .noSchedule) := by
  have hcmd : s.port.cmd = commandWord (opOfDir dir) 8 data := by rw [hport]; rfl
  rw [step_accept s (by rw [hport]; rfl) hp (by rw [hport]; rfl), hcmd, decodeCommand_commandWord_block,
    exec_blockCommand (s := s.advanceInputs) hp, acceptBlock_noSchedule (s := s.advanceInputs) hk]

/-- Settles O54: after the reset the engine is idle without a response or a schedule, and stays so until it is presented a
command. -/
theorem resetAbandonsTheCommand : Obligations.ResetAbandonsTheCommand := by
  unfold Obligations.ResetAbandonsTheCommand
  intro s t hr hstep
  obtain rfl := Host.Outcome.next.inj ((step_reset s hr).symm.trans hstep)
  refine ⟨fun n hnothing => ⟨_, run_quiet (State.resetStep_phase _) hnothing, rfl, rfl, rfl, rfl⟩,
    fun dir data hport => ?command⟩
  case command =>
    exact ⟨_, step_blockCommand_noSchedule (State.resetStep_phase _) (State.resetStep_kvalid _) hport, rfl, rfl⟩

/-! ### Schedules under which the directions agree (70_reset_and_hazards.md R130) -/

/-- The halves depend on the direction and the store through the round keys alone. -/
theorem blockHalves_congr {d₁ d₂ : Dir} {ks₁ ks₂ : Vector RoundKey 16}
    (h : ∀ i, keyOfRound d₁ ks₁ i = keyOfRound d₂ ks₂ i) (x : Block) (n : Nat) :
    blockHalves d₁ ks₁ x n = blockHalves d₂ ks₂ x n := by
  induction n with
  | zero => rfl
  | succ n ih => rw [blockHalves, blockHalves, ih, h]

theorem des_congr {d₁ d₂ : Dir} {ks₁ ks₂ : Vector RoundKey 16} (h : ∀ i, keyOfRound d₁ ks₁ i = keyOfRound d₂ ks₂ i)
    (x : Block) : des d₁ ks₁ x = des d₂ ks₂ x := by
  rw [des, des, blockHalves_congr h]

/-- Where entry `i` is entry `15 - i`, each round has the same key in both directions. -/
theorem keyOfRound_palindrome {ks : Vector RoundKey 16} (h : ∀ i : Fin 16, ks[i] = ks[15 - i.val]'(by omega))
    (i : BitVec 4) : keyOfRound .encrypt ks i = keyOfRound .decrypt ks i := by
  simp only [keyOfRound, keyIndex_encrypt_toNat, keyIndex_decrypt_toNat]
  exact h i.toFin

/-- Rotations leave a key state of zeros as it is. -/
theorem keyHalves_eq_zero {key : Block} (h : permutedKey key = 0) (n : Nat) : keyHalves key n = (0, 0) := by
  induction n with
  | zero => rw [keyHalves_zero, h]; rfl
  | succ n ih => rw [keyHalves_succ, ih]; simp [rotl28]

theorem roundKey_eq_zero {key : Block} (h : permutedKey key = 0) (i : Nat) : roundKey key i = 0 := by
  rw [roundKey, keyHalves_eq_zero h]
  decide

/-- The key of parity bits alone (95_test_vectors.md P6). -/
theorem permutedKey_parityBits : permutedKey 0x0101010101010101 = 0 := by
  have hselected : ∀ p < 56, (0x0101010101010101 : Block).getMsbD (tablePC1.getD p 0) = false := by decide
  apply BitVec.eq_of_getMsbD_eq
  intro p hp
  rw [permutedKey_getMsbD _ hp, hselected p hp]
  exact BitVec.getMsbD_zero.symm

/-- Settles O16: the directions then use the same key in each round; and the named key has no bit that PC1 selects. -/
theorem palindromicSchedules : Obligations.PalindromicSchedules := by
  unfold Obligations.PalindromicSchedules
  refine ⟨fun ks x h => des_congr (keyOfRound_palindrome h) x, fun i => ?zeros⟩
  case zeros => rw [keySchedule_getElem, roundKey_eq_zero permutedKey_parityBits]

end Sys2Proof.Machine
end

section
/-! Proof of the statement about the words that spec/95_test_vectors.md V20 and spec/opcode_table.json write out: a word is
the encoded form of the command it stands for, and the decoder undoes the encoder. -/

namespace Sys2Proof.Machine

/-- A command word of the table is read as the command that it encodes. -/
theorem decodeTableWord_command {w : Nat} {i : Instr} (hw : w < 2 ^ 70) (h : encode i = .cw (BitVec.ofNat 70 w)) :
    decodeTableWord 72 w = some i := by
  have htable : tableEncoded 72 w = .ok (encode i) := by rw [tableEncoded, if_neg (by decide), if_pos hw, h]
  simp only [decodeTableWord, htable, decode_encode]

/-- A `SEQ` word of the table is a `PHASE`; in `PHASE` 1, 2 and 3 the decoder reads nothing beside it (30_encoding.md R45). -/
theorem decodeTableWord_seq {w : Nat} {i : Instr} (hw : w < 8)
    (h : ∀ word kvalid, decode (.seq (BitVec.ofNat 3 w) word kvalid) = .ok i) : decodeTableWord 8 w = some i := by
  have htable : tableEncoded 8 w = .ok (.seq (BitVec.ofNat 3 w) (commandWord 0b01 8 0) false) := by
    rw [tableEncoded, if_pos (by decide), if_pos hw]
  simp only [decodeTableWord, htable, h]

/-- Settles O18: each command encodes to its word of V20, and each `PHASE` selects its micro-operation. -/
theorem knownWordsDecode : Obligations.KnownWordsDecode := by
  unfold Obligations.KnownWordsDecode
  refine ⟨?dks, ?enc, ?dec, ?reserved, ?ksStep, ?blkRound, ?blkFinal⟩
  case dks | enc | dec | reserved => exact decodeTableWord_command (by decide) (by decide)
  case ksStep | blkRound | blkFinal => exact decodeTableWord_seq (by decide) fun _ _ => rfl

end Sys2Proof.Machine
end
